-- ==== Sys2Proof/Word.lean ====
section
/-! DEFINITION. The word types of the unit: an 8-bit byte (a layer byte, a bus word, a command byte) and the 32-bit host
register word (10_state.md R20, 20_memory.md R43, R53). -/

namespace Sys2Proof

/-- A layer byte or one 8-bit bus word (R34, R53). -/
abbrev Byte := BitVec 8

/-- A host register is 32 bits wide (R20). -/
abbrev Word := BitVec 32

end Sys2Proof
end

