-- ==== Sys2Proof/Config.lean ====
section
/-! DEFINITION. What is fixed for a machine: the constants of 00_scope.md R8, the parameters R8 leaves to the model as data
(`Params`), and the free values, opaque constants with no body, for what the spec leaves open (log 5, 7, 8, 12, 14). -/

namespace Sys2Proof

namespace Config

/-- LAYER_CAPACITY, bytes per layer (R8; 90_conflicts.md C1). -/
def layerCapacity : Nat := 15000
/-- GROUP_PIXELS (R8). -/
def groupPixels : Nat := 8
/-- REF_WIDTH (R8). -/
def refWidth : Nat := 400
/-- REF_HEIGHT (R8). -/
def refHeight : Nat := 300
/-- BUS_CLOCK_MAX_HZ (R8). -/
def busClockMaxHz : Nat := 10000000
/-- BUSY_POLL_MS (R8, R94). -/
def busyPollMs : Nat := 5
/-- MIN_REFRESH_INTERVAL_MS (R8, R98). -/
def minRefreshIntervalMs : Nat := 180000
/-- SOFT_RESET_WAIT_MS (R8, R95 step 3). -/
def softResetWaitMs : Nat := 5
/-- SETTLE_MS (R8, R101 step 5). -/
def settleMs : Nat := 150
/-- LINE_RESERVED of the reference configuration: no role may have this line (R8, R90, D57). -/
def reservedLine : Nat := 25

end Config

/-- The line numbers, which are parameters (R8, R90, D57). -/
structure LineNumbers where
  power : Nat
  cs : Nat
  dc : Nat
  busy : Nat
  reset : Nat
  /-- never driven (R90) -/
  reserved : Nat
  deriving DecidableEq, Repr

/-- The parameters of R8 that are not one constant of the source. -/
structure Params where
  lines : LineNumbers
  /-- BUS_DEVICE_PATH, OPEN -/
  busDevicePath : String
  /-- BUS_WORD_BITS -/
  busWordBits : Nat
  /-- BUS_MODE -/
  busMode : Nat
  /-- BUS_CLOCK_HZ, OPEN -/
  busClockHz : Nat
  /-- BUSY_ASSERTED_LEVEL, OPEN; a Bool, so that it is 0 or 1 (R9, log 8) -/
  busyAssertedLevel : Bool
  /-- BUSY_TIMEOUT_RESET_MS, OPEN -/
  busyTimeoutReset : Word
  /-- TEMP_CODE_RESET, OPEN -/
  tempCodeReset : Byte
  /-- WIRE_MSB_FIRST (R52, D22) -/
  wireMsbFirst : Bool
  /-- BRIGHTNESS_BITS (D15, log 10) -/
  brightnessBits : Nat
  /-- ACTIVATION_TABLE: the geometries whose activation command is ACTIVATE_A; every other one has ACTIVATE_B (R70, log 11) -/
  activateAFor : List (Nat × Nat)
  deriving DecidableEq, Repr

/-- What the environment answers to one event (R12, R55, R128): Ok or Fail; the level, for a Get; the brightness, for a PixRead;
and how many milliseconds the event took beyond its minimum. A field that the event does not ask for is not read. -/
structure Answer where
  ok : Bool
  level : Bool
  bright : Nat
  ms : Nat
  deriving DecidableEq, Repr, Inhabited

namespace Config

/-- FREE VALUE: the environment's answer to an event once `State.env` is used up (R55; log 5). -/
opaque freeAnswer : Nat → Answer
/-- FREE VALUE: Now() at reset (R128, R135; log 7). -/
opaque nowAtReset : Nat
/-- FREE VALUE: a layer byte that no ENCODE has left a value in, by the byte's epoch, the layer (true for SECONDARY) and the index
(R85, R86, R135; log 12). -/
opaque unwrittenByte : Nat → Bool → Nat → Byte
/-- FREE VALUE: a layer-window byte read while BUSY = 1, by reply number and offset (R44; log 14). -/
opaque busyWindowByte : Nat → Nat → Byte
/-- OPEN parameter BUS_DEVICE_PATH (R8; log 8). -/
opaque busDevicePath : String
/-- OPEN parameter BUSY_ASSERTED_LEVEL (R8, D24; log 8). -/
opaque busyAssertedLevel : Bool
/-- OPEN parameter BUSY_TIMEOUT_RESET_MS (R8, D26; log 8). -/
opaque busyTimeoutResetMs : Word
/-- OPEN parameter TEMP_CODE_RESET (R8, D25; log 8). -/
opaque tempCodeReset : Byte

/-- The reference line numbers of §6 (R8, R90). -/
def lines : LineNumbers := { power := 18, cs := 17, dc := 27, busy := 23, reset := 24, reserved := reservedLine }

/-- The parameter set of the machine that `State.reset` describes: R8's values and defaults, the OPEN parameters free but for
BUS_CLOCK_HZ (DESIGN CHOICE, log 9). Every statement is about every parameter set; this one is only where reset starts. -/
def params : Params :=
  { lines := lines
    busDevicePath := busDevicePath
    busWordBits := 8
    busMode := 0
    busClockHz := 10000000
    busyAssertedLevel := busyAssertedLevel
    busyTimeoutReset := busyTimeoutResetMs
    tempCodeReset := tempCodeReset
    wireMsbFirst := true
    brightnessBits := 8
    activateAFor := [(refWidth, refHeight)] }

end Config

end Sys2Proof
end

