-- ==== Sys2Proof/Machine/State.lean ====
section
/-! DEFINITION. The machine's state as plain data, the reasons a step can stop, and the state after reset
(10_state.md R15 to R39; 70_reset_and_hazards.md R135). -/

namespace Sys2Proof.Machine

/-- Why the machine stops with a fault. Errors of the spec (60_exceptions.md R120) are no faults: they are recorded in ERROR. -/
inductive Fault where
  /-- Raised by the meaning of a wire command when the sequencer's cursor stands at no item that writes that command. The spec
  gives a wire command an effect only as the item that names it (R68, R108). Safe: no step reaches it (log 15). -/
  | wireCommandOffItem
  deriving DecidableEq, Repr

/-- Why the machine refuses to take a step. -/
inductive Refusal where
  /-- Answered by an arm of `exec` whose instruction has no meaning; no arm does. Safe. -/
  | notModelled (mnemonic : String)
  /-- Raised by the step for a host access that R42 does not admit: "A model refuses every other access". Safe. -/
  | accessNotAdmitted
  /-- Raised by the step for a unit reset of a state that is not quiescent (R136). Safe. -/
  | resetNotQuiescent
  /-- Raised by every step of a machine whose parameter set breaks R9. Safe. -/
  | parametersRefused
  deriving DecidableEq, Repr

/-- The five control lines, by role (R90). -/
inductive Line where
  | power | reset | cs | dc | busy
  deriving DecidableEq, Repr

/-- The directions of SetDir (R12). -/
inductive Dir where
  | outHigh | outLow | input
  deriving DecidableEq, Repr

/-- The two layers (R34). -/
inductive Layer where
  | primary | secondary
  deriving DecidableEq, Repr

/-- One bit for each control line: STATUS.EXPORTED (R22, R24). -/
structure Exported where
  power : Bool
  reset : Bool
  cs : Bool
  dc : Bool
  busy : Bool
  deriving DecidableEq, Repr

/-- The operations of the sequencer (R18). -/
inductive Op where
  | none | encode | powerOn | sendImage | powerOff | cleanup
  deriving DecidableEq, Repr

/-- The sequencer cursor `seq = (op, step, item)` (R18). -/
structure Cursor where
  op : Op
  step : Nat
  item : Nat
  deriving DecidableEq, Repr

/-- ENCODE's pixel cursor and accumulator (R19). -/
structure PixelCursor where
  y : Nat
  g : Nat
  n : Nat
  acc : Byte
  deriving DecidableEq, Repr

/-- Where a WAIT_BUSY stands in its loop, with its t0 (R94): not begun, about to poll, about to delay. -/
inductive Wait where
  | idle
  | poll (t0 : Nat)
  | sleep (t0 : Nat)
  deriving DecidableEq, Repr

/-- ERROR.CODE (R120). -/
inductive ErrorCode where
  | none | dimensionMismatch | pixelAccess | hardwareIo | hardwareTimeout
  | geometryInvalid | refreshTooSoon | invalidState | noFrame | illegalCommand
  deriving DecidableEq, Repr

/-- ERROR.PHASE (R25). -/
inductive Phase where
  | none | encode | init | transfer | shutdown | command
  deriving DecidableEq, Repr

/-- The fields of ERROR (R25). -/
structure ErrorReg where
  code : ErrorCode
  phase : Phase
  step : BitVec 8
  item : BitVec 8
  deriving DecidableEq, Repr

/-- The events of R54, with line numbers as the trace shows them. -/
inductive Event where
  | pixRead (x y : Nat)
  | exportLine (line : Nat)
  | setDir (line : Nat) (d : Dir)
  | set (line : Nat) (v : Bool)
  | get (line : Nat)
  | unexportLine (line : Nat)
  | busOpen (path : String)
  | busConfig (mode bits hz : Nat)
  | busWrite (bytes : List Byte)
  | busClose
  | delay (ms : Nat)
  deriving DecidableEq, Repr

/-- What an event came to (R54). -/
inductive EventOutcome where
  | ok
  | okLevel (v : Bool)
  | okBright (b : Nat)
  | fail
  deriving DecidableEq, Repr

/-- One entry of the event trace: the event, its outcome, Now() when it began, and the cursor it was issued at (R54, R73). -/
structure Entry where
  event : Event
  outcome : EventOutcome
  time : Nat
  pos : Cursor
  deriving DecidableEq, Repr

/-- An input from outside the unit. -/
inductive Input where
  /-- MemRead(a, n) (R42) -/
  | read (a n : Nat)
  /-- MemWrite(a, n, v) (R42) -/
  | write (a n : Nat) (v : Word)
  /-- the unit reset (R135, R136) -/
  | unitReset
  /-- another pixel source is presented (R38, R141) -/
  | source (w h : Nat)
  /-- time passes (R128) -/
  | elapse (ms : Nat)
  deriving DecidableEq, Repr

/-- A queued input and how many sequencer moves go before it; an idle unit takes it at once (R50, R58; log 4). -/
structure Pending where
  after : Nat
  input : Input
  deriving DecidableEq, Repr

/-- What a host read was answered (R43). -/
structure Reply where
  a : Nat
  n : Nat
  value : Word
  deriving DecidableEq, Repr

/-- Everything the spec gives the unit, its parameters, the environment's answers and inputs, and what an observer has seen. -/
structure State where
  /-- the parameter set (R8); no step changes it -/
  params : Params
  /-- STATUS.BUSY (R22) -/
  busy : Bool
  /-- STATUS.SESSION (R22, R23) -/
  session : Bool
  /-- STATUS.FRAME_VALID (R22) -/
  frameValid : Bool
  /-- STATUS.HAZARD (R22) -/
  hazard : Bool
  /-- STATUS.LAST_REFRESH_VALID (R22) -/
  lastRefreshValid : Bool
  /-- STATUS.CLEANUP_ERR (R22) -/
  cleanupErr : Bool
  /-- STATUS.BUS_OPEN (R22) -/
  busOpen : Bool
  /-- STATUS.EXPORTED (R22, R24) -/
  exported : Exported
  /-- ERROR (R25) -/
  error : ErrorReg
  /-- ERR_X (R26) -/
  errX : Word
  /-- ERR_Y (R26) -/
  errY : Word
  /-- ENC_WIDTH (R27) -/
  encWidth : Word
  /-- ENC_HEIGHT (R27) -/
  encHeight : Word
  /-- ENC_COLOR.COLOR_MODE (R28) -/
  encColor : Bool
  /-- FRAME_WIDTH (R29) -/
  frameWidth : Word
  /-- FRAME_HEIGHT (R29) -/
  frameHeight : Word
  /-- FRAME_COLOR.COLOR_MODE (R29) -/
  frameColor : Bool
  /-- PANEL_WIDTH (R30) -/
  panelWidth : Word
  /-- PANEL_HEIGHT (R30) -/
  panelHeight : Word
  /-- TEMP_CODE.CODE (R31) -/
  tempCode : Byte
  /-- BUSY_TIMEOUT_MS (R32) -/
  busyTimeout : Word
  /-- LAST_REFRESH (R33) -/
  lastRefresh : BitVec 64
  /-- PRIMARY: the bytes an ENCODE has left a value in, indexes rising (R34; log 12) -/
  primary : List Host.Cell
  /-- SECONDARY, in the same form (R34; log 12) -/
  secondary : List Host.Cell
  /-- seq (R18) -/
  seq : Cursor
  /-- the ENCODE cursor and ACC (R19) -/
  pixel : PixelCursor
  /-- the place in WAIT_BUSY's loop (R94) -/
  wait : Wait
  /-- Now() (R128; log 6) -/
  now : Nat
  /-- SRC_WIDTH (R38) -/
  srcWidth : Nat
  /-- SRC_HEIGHT (R38) -/
  srcHeight : Nat
  /-- MODEL: the environment's answers still to come (R55; log 5) -/
  env : List Answer
  /-- MODEL: how many answers were taken from the free value (log 5) -/
  draws : Nat
  /-- MODEL: the lengths of the layer prefixes that a reset or a failed ENCODE left at any value, latest first (log 12) -/
  forgotten : List Nat
  /-- MODEL: the inputs still to come (log 4) -/
  inputs : List Pending
  /-- MODEL: the event trace since the last unit reset, oldest first (R54) -/
  trace : List Entry
  /-- MODEL: what the host's reads were answered, oldest first -/
  replies : List Reply
  deriving DecidableEq, Repr

/-- The state right after the unit reset (R135), of the machine with the parameters `Config.params`. -/
def State.reset : State :=
  { params := Config.params
    busy := false
    session := false
    frameValid := false
    hazard := false
    lastRefreshValid := false
    cleanupErr := false
    busOpen := false
    exported := { power := false, reset := false, cs := false, dc := false, busy := false }
    error := { code := .none, phase := .none, step := 0, item := 0 }
    errX := 0
    errY := 0
    encWidth := 0
    encHeight := 0
    encColor := false
    frameWidth := 0
    frameHeight := 0
    frameColor := false
    panelWidth := 0
    panelHeight := 0
    tempCode := Config.params.tempCodeReset
    busyTimeout := Config.params.busyTimeoutReset
    lastRefresh := 0
    primary := []
    secondary := []
    seq := { op := .none, step := 0, item := 0 }
    pixel := { y := 0, g := 0, n := 0, acc := 0 }
    wait := .idle
    now := Config.nowAtReset
    srcWidth := 0
    srcHeight := 0
    env := []
    draws := 0
    forgotten := []
    inputs := []
    trace := []
    replies := [] }

end Sys2Proof.Machine
end

