-- ==== Sys2Proof/Machine/Ops.lean ====
section
/-! DEFINITION. The operations the meanings share: a layer memory's bytes, the event of R54 with its answer and its time, the
handle summaries (R56, R57), the error entry of R122 with its shutdown forms (R101, R104) and what undoes it (R47, R125), and
the end of an operation (R48). -/

namespace Sys2Proof.Machine

/-! ### A layer memory: rising (index, byte) pairs; an index not listed holds an unknown byte (R34, R135; log 12) -/

/-- The canonical form of a layer memory: its indexes rise strictly. -/
abbrev memoryWf (m : List Host.Cell) : Prop := (m.map Prod.fst).Pairwise (· < ·)

/-- The byte listed at an index. -/
def memoryGet : List Host.Cell → Nat → Option Byte
  | [], _ => none
  | (k, v) :: r, a => if a = k then some v else memoryGet r a

/-- Write one byte, keeping the canonical form. -/
def memorySet : List Host.Cell → Nat → Byte → List Host.Cell
  | [], a, b => [(a, b)]
  | (k, v) :: r, a, b =>
    if a < k then (a, b) :: (k, v) :: r
    else if a = k then (a, b) :: r
    else (k, v) :: memorySet r a b

/-- Bytes 0 to L-1 become any value (R86). -/
def memoryForget (l : Nat) (m : List Host.Cell) : List Host.Cell := m.filter (fun c => l ≤ c.1)

/-- Bytes 0 to L-1 become 0x00 (R81 step 4, R84). -/
def memoryZero (l : Nat) (m : List Host.Cell) : List Host.Cell :=
  (List.range l).map (fun i => (i, 0)) ++ memoryForget l m

/-! ### Lines -/

/-- The number of a control line (R8, R90). -/
def LineNumbers.of (n : LineNumbers) : Line → Nat
  | .power => n.power
  | .reset => n.reset
  | .cs => n.cs
  | .dc => n.dc
  | .busy => n.busy

/-- The number of a control line of this machine. -/
def State.lineNumber (s : State) (l : Line) : Nat := LineNumbers.of s.params.lines l

/-- The EXPORTED bit of a line (R22). -/
def Exported.get (e : Exported) : Line → Bool
  | .power => e.power
  | .reset => e.reset
  | .cs => e.cs
  | .dc => e.dc
  | .busy => e.busy

/-- Set or clear the EXPORTED bit of a line (R56). -/
def Exported.put (e : Exported) (l : Line) (v : Bool) : Exported :=
  match l with
  | .power => { e with power := v }
  | .reset => { e with reset := v }
  | .cs => { e with cs := v }
  | .dc => { e with dc := v }
  | .busy => { e with busy := v }

/-- `Export(l)` Ok sets the bit of l, `Unexport(l)` Ok clears it (R56). -/
def State.markExported (l : Line) (v : Bool) (s : State) : State := { s with exported := s.exported.put l v }

/-- `BusOpen()` Ok sets BUS_OPEN, `BusClose()` Ok clears it (R57). -/
def State.markBusOpen (v : Bool) (s : State) : State := { s with busOpen := v }

/-! ### Events -/

/-- The environment's next answer: the head of `env`, or the free value once `env` is used up (R55; log 5). -/
def State.answer (s : State) : Answer :=
  match s.env with
  | a :: _ => a
  | [] => Config.freeAnswer s.draws

/-- The answer is used. -/
def State.takeAnswer (s : State) : State :=
  match s.env with
  | _ :: r => { s with env := r }
  | [] => { s with draws := s.draws + 1 }

/-- The least time an event takes: d for `Delay(d)`, 0 for every other (R128). -/
def Event.minMs : Event → Nat
  | .delay ms => ms
  | _ => 0

/-- The brightness of an answer: a BRIGHTNESS_BITS-bit value (R12, R38, R55). -/
def State.brightness (s : State) (a : Answer) : Nat := a.bright % 2 ^ s.params.brightnessBits

/-- The outcome of an event under an answer (R54). A Delay cannot fail (R12). -/
def State.outcomeOf (s : State) (e : Event) (a : Answer) : EventOutcome :=
  match e with
  | .delay _ => .ok
  | .get _ => if a.ok then .okLevel a.level else .fail
  | .pixRead _ _ => if a.ok then .okBright (s.brightness a) else .fail
  | _ => if a.ok then .ok else .fail

/-- One event (R12, R54): it takes the next answer, its time passes (R128), and it stands in the trace with its outcome. -/
def State.emit (e : Event) (s : State) : State :=
  { s.takeAnswer with
    now := s.now + e.minMs + s.answer.ms
    trace := s.trace ++ [{ event := e, outcome := s.outcomeOf e s.answer, time := s.now, pos := s.seq }] }

/-- `Now()` as the 64-bit count (R128; log 6). -/
def State.now64 (s : State) : BitVec 64 := BitVec.ofNat 64 s.now

/-- `LAST_REFRESH <- Now(); STATUS.LAST_REFRESH_VALID <- 1` (R97 step 5 item 0, R119). -/
def State.stampRefresh (s : State) : State := { s with lastRefresh := s.now64, lastRefreshValid := true }

/-! ### Errors -/

/-- HARDWARE_IO_ERROR and HARDWARE_TIMEOUT, the errors that a cleanup follows (R121, R122). -/
def ErrorCode.isHardware : ErrorCode → Bool
  | .hardwareIo => true
  | .hardwareTimeout => true
  | .none => false
  | .dimensionMismatch => false
  | .pixelAccess => false
  | .geometryInvalid => false
  | .refreshTooSoon => false
  | .invalidState => false
  | .noFrame => false
  | .illegalCommand => false

/-- The PHASE of an operation's errors (R25, R124). CLEANUP raises none (R104). -/
def Op.phase : Op → Phase
  | .none => .none
  | .encode => .encode
  | .powerOn => .init
  | .sendImage => .transfer
  | .powerOff => .shutdown
  | .cleanup => .none

/-- The end of an operation: `seq <- (NONE, 0, 0)` and `STATUS.BUSY <- 0`, in one step (R48). -/
def State.endOperation (s : State) : State :=
  { s with seq := { op := .none, step := 0, item := 0 }, busy := false, wait := .idle }

/-- `ERROR <- {0, item, step, phase, E}` (R122, R25). -/
def State.setError (e : ErrorCode) (p : Phase) (step item : Nat) (s : State) : State :=
  { s with error := { code := e, phase := p, step := BitVec.ofNat 8 step, item := BitVec.ofNat 8 item } }

/-- CLEANUP begins at its step 1 item 0 (R104). -/
def State.startCleanup (s : State) : State :=
  { s with seq := { op := .cleanup, step := 1, item := 0 }, wait := .idle }

/-- TAKING AN ERROR, `raise E(phase, step, item)` (R122): ERROR is written; a hardware error of the INIT or TRANSFER phase runs
CLEANUP, every other one ends the operation. -/
def State.raise (e : ErrorCode) (p : Phase) (step item : Nat) (s : State) : State :=
  if e.isHardware && (p == .init || p == .transfer) then (s.setError e p step item).startCleanup
  else (s.setError e p step item).endOperation

/-- `raise` at the cursor: the phase of the running operation, and the `seq` of the failing item (R92). -/
def State.raiseHere (e : ErrorCode) (s : State) : State := s.raise e s.seq.op.phase s.seq.step s.seq.item

/-- `note(E)` of POWER_OFF (R101): if ERROR.CODE = 0 then ERROR <- (E, SHUTDOWN, step, item). -/
def State.note (e : ErrorCode) (s : State) : State :=
  if s.error.code = .none then s.setError e .shutdown s.seq.step s.seq.item else s

/-- `cfail` of CLEANUP (R104): STATUS.CLEANUP_ERR <- 1; ERROR keeps the primary error. -/
def State.cleanupFail (s : State) : State := { s with cleanupErr := true }

/-- What undoes an error: the acceptance of the next command clears ERROR, HAZARD and CLEANUP_ERR (R47, R125), sets BUSY and puts
the cursor at the operation's first step. There is no other return from an error (R125). -/
def State.acceptCommand (op : Op) (step : Nat) (s : State) : State :=
  { s with
    error := { code := .none, phase := .none, step := 0, item := 0 }
    hazard := false
    cleanupErr := false
    busy := true
    seq := { op := op, step := step, item := 0 }
    wait := .idle }

/-- A dropped host write: STATUS.HAZARD <- 1 and nothing else (R46). -/
def State.dropWrite (s : State) : State := { s with hazard := true }

/-- The acceptance of a word that is no command: ILLEGAL_COMMAND with phase COMMAND, and the command ends at once (R47, R67). -/
def State.acceptIllegal (s : State) : State :=
  (s.acceptCommand .none 0).raise .illegalCommand .command 0 0

/-! ### The unit reset -/

/-- A quiescent state (R136). -/
def State.quiescent (s : State) : Bool :=
  !s.busy && !s.session && !s.busOpen &&
  !s.exported.power && !s.exported.reset && !s.exported.cs && !s.exported.dc && !s.exported.busy

/-- The unit reset (R135): every piece of unit state takes its reset value. The time base, the pixel source and the inputs to
come are outside the unit and stay; the trace begins again (log 17). The layers hold any value: a new epoch of every byte. -/
def State.unitReset (s : State) : State :=
  { State.reset with
    params := s.params
    tempCode := s.params.tempCodeReset
    busyTimeout := s.params.busyTimeoutReset
    now := s.now
    srcWidth := s.srcWidth
    srcHeight := s.srcHeight
    env := s.env
    draws := s.draws
    forgotten := Config.layerCapacity :: s.forgotten
    inputs := s.inputs
    replies := s.replies }

end Sys2Proof.Machine
end

