-- ==== Sys2Proof/Machine/Operands.lean ====
section
/-! DEFINITION. The operands of the operations: the parameter check of R9, geometries and layer lengths (R76 to R78), the bytes
of a layer (R34, R44), the wire commands' bytes (R68 to R71) and the order of their bits on the wire (R52). -/

namespace Sys2Proof.Machine

/-! ### Parameters -/

/-- The line numbers of the five roles (R90). -/
def LineNumbers.five (n : LineNumbers) : List Nat := [n.power, n.cs, n.dc, n.busy, n.reset]

/-- The parameter sets a model may run with (R9). No role has the reserved line, nor line 25 (R90; 93_implementation_defined.md
section 1). BRIGHTNESS_BITS is at least 1 (log 10). -/
def paramsOk (p : Params) : Bool :=
  decide (1 ≤ p.busClockHz) && decide (p.busClockHz ≤ Config.busClockMaxHz) &&
  decide (p.busWordBits = 8) && decide (p.busMode = 0) &&
  decide (LineNumbers.five p.lines).Nodup && decide (p.lines.reserved ∉ LineNumbers.five p.lines) &&
  decide (Config.reservedLine ∉ LineNumbers.five p.lines) &&
  decide (1 ≤ p.brightnessBits)

/-! ### Geometry -/

/-- A valid geometry (R78). -/
def geometryValid (w h : Nat) : Bool :=
  decide (1 ≤ w) && decide (1 ≤ h) && decide (w % Config.groupPixels = 0) &&
  decide (w * h ≤ Config.groupPixels * Config.layerCapacity)

/-- The layer length L = W*H/8 (R77). -/
def layerLength (w h : Nat) : Nat := w * h / Config.groupPixels

/-- L of the ENCODE geometry. -/
def State.encLength (s : State) : Nat := layerLength s.encWidth.toNat s.encHeight.toNat

/-- L of the controller's geometry (R71). -/
def State.panelLength (s : State) : Nat := layerLength s.panelWidth.toNat s.panelHeight.toNat

/-- The groups of one row, W/8 (R19, R81). -/
def State.groupsPerRow (s : State) : Nat := s.encWidth.toNat / Config.groupPixels

/-! ### Pixels -/

/-- DARK_LIMIT = 2^(B-1) (R76). -/
def darkLimit (bits : Nat) : Nat := 2 ^ (bits - 1)

/-- A pixel is dark when b < DARK_LIMIT (R76). -/
def State.isDark (s : State) (b : Nat) : Bool := decide (b < darkLimit s.params.brightnessBits)

/-- `if dark: ACC[n] <- 1` (R81, R83). -/
def accumulate (acc : Byte) (n : Nat) (dark : Bool) : Byte := if dark then acc ||| (1 <<< n) else acc

/-! ### Layers -/

/-- The memory of a layer. -/
def State.layer (s : State) : Layer → List Host.Cell
  | .primary => s.primary
  | .secondary => s.secondary

/-- How many resets and failed ENCODEs have left byte i of the layers at any value (R85, R86, R135; log 12). -/
def State.byteEpoch (s : State) (i : Nat) : Nat := s.forgotten.countP (fun l => decide (i < l))

/-- Byte i of a layer: the byte an ENCODE left there, else an unknown byte, the same one until a reset or a failed ENCODE that
reaches it (R34, R44, R85, R86; log 12). -/
def State.layerByte (s : State) (l : Layer) (i : Nat) : Byte :=
  match memoryGet (s.layer l) i with
  | some b => b
  | none => Config.unwrittenByte (s.byteEpoch i) (l == .secondary) i

/-- The payload of LAYER_DATA: bytes 0 to L-1 (R71, R117). -/
def State.payload (s : State) (l : Layer) : List Byte := (List.range s.panelLength).map (s.layerByte l)

/-! ### Wire commands -/

/-- The items of the controller's step tables that write the bus (R95, R97, R101, R104). -/
inductive WireItem where
  | softReset | tempComp | activate | panelSettings | deepSleep
  | selPrimary | dataPrimary | selSecondary | dataSecondary | powerOnDisplay | refresh
  deriving DecidableEq, Repr

/-- The activation choice (R70): ACTIVATE_A for the geometries the table lists, 400×300 by default. -/
def State.activatesA (s : State) : Bool := s.params.activateAFor.contains (s.panelWidth.toNat, s.panelHeight.toNat)

/-- The bytes that an item writes (R95, R97, R101, R104). -/
def State.wireBytes (s : State) : WireItem → List Byte
  | .softReset => [0x00, 0x0E]
  | .tempComp => [0xE5, s.tempCode]
  | .activate => if s.activatesA then [0xE0, 0x02] else [0xCF, 0x02]
  | .panelSettings => [0x00, 0x0F, 0x89]
  | .deepSleep => [0x02, 0x02]
  | .selPrimary => [0x10]
  | .dataPrimary => s.payload .primary
  | .selSecondary => [0x13]
  | .dataSecondary => s.payload .secondary
  | .powerOnDisplay => [0x04, 0x04]
  | .refresh => [0x12, 0x12]

/-- The bits of one byte, most significant first. -/
def bitsMsbFirst (b : Byte) : List Bool := (List.range 8).map (fun i => b.getLsbD (7 - i))

/-- The bits of a BusWrite in the order they go out (R52): bytes in index order, each byte's bits by WIRE_MSB_FIRST. -/
def wireBits (msbFirst : Bool) (bytes : List Byte) : List Bool :=
  bytes.flatMap (fun b => if msbFirst then bitsMsbFirst b else (bitsMsbFirst b).reverse)

/-- The bits of a BusWrite of this machine, by its parameter WIRE_MSB_FIRST (R8, R52). -/
def State.busBits (s : State) (bytes : List Byte) : List Bool := wireBits s.params.wireMsbFirst bytes

/-- The bits one entry of the trace has put on the wire: those of a BusWrite that succeeded. What a failed one puts out the spec
does not say, and this view takes none of it (log 25). -/
def State.entryBits (s : State) (e : Entry) : List Bool :=
  match e.event, e.outcome with
  | .busWrite bytes, .ok => s.busBits bytes
  | _, _ => []

/-- The bits on the wire since the unit reset, oldest first, as the trace accounts for them (R52, R54; log 25). -/
def State.sentBits (s : State) : List Bool := s.trace.flatMap s.entryBits

end Sys2Proof.Machine
end

