-- ==== Sys2Proof/Machine/Flags.lean ====
section
/-! DEFINITION. The status bits as software reads them: STATUS (R22), ERROR (R25, R120) and the registers with reserved bits
(R20, R28, R29, R31). The unit has no arithmetic flags (R37). -/

namespace Sys2Proof.Machine

/-- The EXPORTED field: power is bit 0, then reset, chip-select, data/command, busy (R22). -/
def Exported.bits (e : Exported) : BitVec 5 :=
  BitVec.ofBool e.busy ++ BitVec.ofBool e.dc ++ BitVec.ofBool e.cs ++ BitVec.ofBool e.reset ++ BitVec.ofBool e.power

/-- STATUS (R22). -/
def State.statusWord (s : State) : Word :=
  (0#19) ++ s.exported.bits ++ (0#1) ++ BitVec.ofBool s.busOpen ++ BitVec.ofBool s.cleanupErr ++
    BitVec.ofBool s.lastRefreshValid ++ BitVec.ofBool s.hazard ++ BitVec.ofBool s.frameValid ++
    BitVec.ofBool s.session ++ BitVec.ofBool s.busy

/-- The numeric error codes (R120). -/
def ErrorCode.bits : ErrorCode → BitVec 8
  | .none => 0x00
  | .dimensionMismatch => 0x01
  | .pixelAccess => 0x02
  | .hardwareIo => 0x03
  | .hardwareTimeout => 0x04
  | .geometryInvalid => 0x05
  | .refreshTooSoon => 0x06
  | .invalidState => 0x07
  | .noFrame => 0x08
  | .illegalCommand => 0x09

/-- The numeric phases (R25). -/
def Phase.bits : Phase → BitVec 4
  | .none => 0
  | .encode => 1
  | .init => 2
  | .transfer => 3
  | .shutdown => 4
  | .command => 5

/-- ERROR (R25, R122). -/
def ErrorReg.word (e : ErrorReg) : Word := (0#4) ++ e.item ++ e.step ++ e.phase.bits ++ e.code.bits

/-- A register whose bit 0 alone is stored (R28, R29). -/
def colorWord (c : Bool) : Word := (0#31) ++ BitVec.ofBool c

/-- TEMP_CODE as read: reserved bits read 0 (R31). -/
def tempWord (b : Byte) : Word := (0#24) ++ b

end Sys2Proof.Machine
end

