-- ==== Sys2Proof/Machine/Sequencer.lean ====
section
/-! DEFINITION. The controller's step tables as data (42_panel_sequencer.md R95, R97, R101, R104), the cursor's advance (R18),
what an item does when its event fails (R92, R101, R104), and the write of one wire command (R93). -/

namespace Sys2Proof.Machine

/-- A precondition that an operation tests without an event (R95 step 0, R97 step 1, R101 step 0). -/
inductive Check where
  | sessionIdle | sessionActive | panelGeometry | frameHeld | frameMatches | refreshAllowed
  deriving DecidableEq, Repr

/-- What one item of a step table does. -/
inductive Action where
  | test (c : Check)
  | exportLine (l : Line)
  | setDir (l : Line) (d : Dir)
  | set (l : Line) (v : Bool)
  /-- POWER_OFF step 4: a Fail is ignored (R102) -/
  | setBestEffort (l : Line) (v : Bool)
  | unexportLine (l : Line)
  | busOpen
  | busConfig
  | busClose
  | delay (ms : Nat)
  | wire (w : WireItem)
  /-- WAIT_BUSY(asserted) or WAIT_BUSY(deasserted) (R94) -/
  | waitBusy (asserted : Bool)
  deriving DecidableEq, Repr

/-! ### The step tables -/

/-- POWER_ON (R95). -/
def powerOnTable : List (Nat × List Action) :=
  [ (0, [.test .sessionIdle, .test .panelGeometry]),
    (1, [.exportLine .power, .exportLine .reset, .exportLine .cs, .exportLine .dc, .exportLine .busy,
         .setDir .power .outHigh, .setDir .reset .outLow, .setDir .cs .outLow, .setDir .dc .outLow, .setDir .busy .input,
         .busOpen, .busConfig]),
    (2, [.delay 5, .set .reset true, .delay 5, .set .reset false, .delay 10, .set .reset true, .delay 5]),
    (3, [.wire .softReset, .delay Config.softResetWaitMs]),
    (4, [.wire .tempComp]),
    (5, [.wire .activate]),
    (6, [.wire .panelSettings]) ]

/-- SEND_IMAGE (R97). -/
def sendImageTable : List (Nat × List Action) :=
  [ (1, [.test .sessionActive, .test .frameHeld, .test .frameMatches, .test .refreshAllowed]),
    (2, [.wire .selPrimary, .set .cs true, .set .dc true, .set .cs false, .wire .dataPrimary, .set .dc false,
         .wire .selSecondary, .set .cs true, .set .dc true, .set .cs false, .wire .dataSecondary, .set .dc false]),
    (3, [.waitBusy true]),
    (4, [.wire .powerOnDisplay, .waitBusy false]),
    (5, [.wire .refresh, .waitBusy true]) ]

/-- Steps 1 to 7 of POWER_OFF (R101), which are CLEANUP's too (R104). -/
def shutdownTable : List (Nat × List Action) :=
  [ (1, [.wire .deepSleep, .waitBusy true]),
    (2, [.setDir .reset .input]),
    (3, [.set .cs false, .set .dc false, .set .power false]),
    (4, [.setBestEffort .busy false]),
    (5, [.delay Config.settleMs]),
    (6, [.unexportLine .power, .unexportLine .reset, .unexportLine .cs, .unexportLine .dc, .unexportLine .busy]),
    (7, [.busClose]) ]

/-- The step table of an operation. ENCODE is not a list of items: its steps are in Packer.lean. -/
def Op.table : Op → List (Nat × List Action)
  | .none => []
  | .encode => []
  | .powerOn => powerOnTable
  | .sendImage => sendImageTable
  | .powerOff => (0, [.test .sessionActive]) :: shutdownTable
  | .cleanup => shutdownTable

/-- The items of a step. -/
def stepItems : List (Nat × List Action) → Nat → List Action
  | [], _ => []
  | (n, items) :: r, step => if step = n then items else stepItems r step

/-- The action of an item, if the operation has that item. -/
def actionAt (c : Cursor) : Option Action := (stepItems c.op.table c.step)[c.item]?

/-- The first step of an operation, where its acceptance puts the cursor (R47). -/
def Op.firstStep : Op → Nat
  | .none => 0
  | .encode => 1
  | .powerOn => 0
  | .sendImage => 1
  | .powerOff => 0
  | .cleanup => 1

/-! ### The cursor's advance -/

/-- The item after the cursor's: the next of its step, else the first of the next step, else none (R18). -/
def nextItem (c : Cursor) : Option Cursor :=
  if (actionAt { c with item := c.item + 1 }).isSome then some { c with item := c.item + 1 }
  else if (actionAt { c with step := c.step + 1, item := 0 }).isSome then some { c with step := c.step + 1, item := 0 }
  else none

/-- What stands under `end:` in the pseudocode, before the operation ends (R95, R101, R104). -/
def State.closing (s : State) : State :=
  match s.seq.op with
  | .powerOn => { s with session := true }
  | .powerOff => { s with session := false }
  | .cleanup => { s with session := false }
  | .none => s
  | .encode => s
  | .sendImage => s

/-- The cursor moves to the next item; after the last one the operation ends (R18, R48). -/
def State.advance (s : State) : State :=
  match nextItem s.seq with
  | some c => { s with seq := c, wait := .idle }
  | none => s.closing.endOperation

/-- POWER_OFF and CLEANUP go on after a failure; a failed DEEP_SLEEP write skips its busy wait (R101, R104, D38). -/
def State.advanceAfterFail (s : State) : State :=
  if s.seq.step = 1 then { s with seq := { s.seq with step := 2, item := 0 }, wait := .idle } else s.advance

/-- A failed item: raised in POWER_ON and SEND_IMAGE (R92), noted in POWER_OFF (R101), recorded as CLEANUP_ERR in CLEANUP
(R104). ENCODE has no line or bus event (R81). -/
def State.failItem (e : ErrorCode) (s : State) : State :=
  match s.seq.op with
  | .powerOn => s.raiseHere e
  | .sendImage => s.raiseHere e
  | .powerOff => (s.note e).advanceAfterFail
  | .cleanup => s.cleanupFail.advanceAfterFail
  | .none => s.endOperation
  | .encode => s.raiseHere e

/-- After a checked event: on Ok its effect `onOk` and the next item, on Fail HARDWARE_IO_ERROR (R92). -/
def State.settle (ok : Bool) (onOk : State → State) (s : State) : State :=
  if ok then (onOk s).advance else s.failItem .hardwareIo

/-- A checked line or bus event (R92). -/
def State.checkedEvent (e : Event) (onOk : State → State) (s : State) : State := (s.emit e).settle s.answer.ok onOk

/-! ### The write of a wire command -/

/-- One wire command is one BusWrite of its bytes (R93). REFRESH records its time first, whether or not the write succeeds
(R97 step 5 item 0, R119). -/
def State.wireWrite (w : WireItem) (bytes : List Byte) (s : State) : State :=
  if w = .refresh then s.stampRefresh.checkedEvent (.busWrite bytes) id else s.checkedEvent (.busWrite bytes) id

/-- The cursor stands at an item that writes `w`. -/
def State.atWireItem (w : WireItem) (s : State) : Bool := actionAt s.seq == some (.wire w)

end Sys2Proof.Machine
end

