-- ==== Sys2Proof/Machine/Controller.lean ====
section
/-! DEFINITION. The moves of the controller: the preconditions (R95 step 0, R97 step 1, R101 step 0), WAIT_BUSY (R94), the
checked items (R92), and CLEANUP's tests of what is held (R104). -/

namespace Sys2Proof.Machine

/-- A precondition holds at the cursor: the next item; else the error, at the cursor (R95, R97, R101). -/
def State.require (ok : Bool) (e : ErrorCode) (s : State) : State := if ok then s.advance else s.raiseHere e

/-- The refresh guard passes (R98): no refresh was attempted, or at least 180 000 ms ago, in 64-bit unsigned arithmetic. -/
def State.refreshAllowed (s : State) : Bool :=
  !s.lastRefreshValid || decide (Config.minRefreshIntervalMs ≤ (s.now64 - s.lastRefresh).toNat)

/-- One precondition (R95, R97, R98, R101). -/
def State.runCheck (c : Check) (s : State) : State :=
  match c with
  | .sessionIdle => s.require (!s.session) .invalidState
  | .sessionActive => s.require s.session .invalidState
  | .panelGeometry => s.require (geometryValid s.panelWidth.toNat s.panelHeight.toNat) .geometryInvalid
  | .frameHeld => s.require s.frameValid .noFrame
  | .frameMatches =>
    s.require (decide (s.frameWidth = s.panelWidth) && decide (s.frameHeight = s.panelHeight)) .dimensionMismatch
  | .refreshAllowed => s.require s.refreshAllowed .refreshTooSoon

/-- The level that WAIT_BUSY waits for (R39, R94). -/
def State.targetLevel (asserted : Bool) (s : State) : Bool :=
  if asserted then s.params.busyAssertedLevel else !s.params.busyAssertedLevel

/-- What a poll comes to: a match ends the wait; else the bound is tested; else a delay is next (R94). -/
def State.afterPoll (asserted : Bool) (t0 : Nat) (level : Bool) (s : State) : State :=
  if level = s.targetLevel asserted then s.advance
  else if s.busyTimeout.toNat ≤ s.now - t0 then s.failItem .hardwareTimeout
  else { s with wait := .sleep t0 }

/-- One poll of the busy line (R94). -/
def State.pollBusy (asserted : Bool) (t0 : Nat) (s : State) : State :=
  if s.answer.ok then (s.emit (.get (s.lineNumber .busy))).afterPoll asserted t0 s.answer.level
  else (s.emit (.get (s.lineNumber .busy))).failItem .hardwareIo

/-- One move of WAIT_BUSY(target) (R94): the first poll is at once, and t0 is the time before it. -/
def State.waitMove (asserted : Bool) (s : State) : State :=
  match s.wait with
  | .idle => s.pollBusy asserted s.now
  | .poll t0 => s.pollBusy asserted t0
  | .sleep t0 => { s.emit (.delay Config.busyPollMs) with wait := .poll t0 }

/-- What an item does (R92, R93, R95, R97, R101). -/
def State.runAction (a : Action) (s : State) : State :=
  match a with
  | .test c => s.runCheck c
  | .exportLine l => s.checkedEvent (.exportLine (s.lineNumber l)) (State.markExported l true)
  | .setDir l d => s.checkedEvent (.setDir (s.lineNumber l) d) id
  | .set l v => s.checkedEvent (.set (s.lineNumber l) v) id
  | .setBestEffort l v => (s.emit (.set (s.lineNumber l) v)).advance
  | .unexportLine l => s.checkedEvent (.unexportLine (s.lineNumber l)) (State.markExported l false)
  | .busOpen => s.checkedEvent (.busOpen s.params.busDevicePath) (State.markBusOpen true)
  | .busConfig => s.checkedEvent (.busConfig s.params.busMode s.params.busWordBits s.params.busClockHz) id
  | .busClose => s.checkedEvent .busClose (State.markBusOpen false)
  | .delay ms => (s.emit (.delay ms)).advance
  | .wire w => s.wireWrite w (s.wireBytes w)
  | .waitBusy asserted => s.waitMove asserted

/-- What CLEANUP's item needs to be held (R104); an item whose resource is not held is skipped. After a BusClose that failed BUS_OPEN
is still 1, so the CLEANUP of a next POWER_ON that fails in step 1 writes DEEP_SLEEP before CS and DC are outputs at 0: the model
follows R104's test of BUS_OPEN there, against R108 (log 19). -/
def State.holdsFor (a : Action) (s : State) : Bool :=
  match a with
  | .test _ => true
  | .exportLine _ => true
  | .setDir l _ => s.exported.get l
  | .set l _ => s.exported.get l
  | .setBestEffort l _ => s.exported.get l
  | .unexportLine l => s.exported.get l
  | .busOpen => true
  | .busConfig => true
  | .busClose => s.busOpen
  | .delay _ => true
  | .wire _ => s.busOpen
  | .waitBusy _ => s.busOpen && s.exported.busy

/-- The item at the cursor is one of CLEANUP that is skipped (R104). -/
def State.skips (a : Action) (s : State) : Bool := (s.seq.op == .cleanup) && !s.holdsFor a

/-- One move of the controller. -/
def State.controllerMove (s : State) : State :=
  match actionAt s.seq with
  | some a => if s.skips a then s.advance else s.runAction a
  | none => s.endOperation

end Sys2Proof.Machine
end

