-- ==== Sys2Proof/Machine/Packer.lean ====
section
/-! DEFINITION. The moves of ENCODE (41_frame_packer.md R81): steps 1, 2, 4 and 5 are one move each, step 3 is one move for each
PixRead (log 3). -/

namespace Sys2Proof.Machine

/-- The cursor moves to item 0 of another ENCODE step. -/
def State.encodeStep (step : Nat) (s : State) : State := { s with seq := { op := .encode, step := step, item := 0 } }

/-- Step 1: the frame is no longer valid; the geometry is checked (R78, R80). -/
def State.encodeGeometry (s : State) : State :=
  if geometryValid s.encWidth.toNat s.encHeight.toNat then ({ s with frameValid := false }).encodeStep 2
  else ({ s with frameValid := false }).raise .geometryInvalid .encode 1 0

/-- Step 2: the pixel source must have the same width and height (R79). Then the pixel loops begin. -/
def State.encodeDimensions (s : State) : State :=
  if s.srcWidth = s.encWidth.toNat ∧ s.srcHeight = s.encHeight.toNat then
    ({ s with pixel := { y := 0, g := 0, n := 0, acc := 0 } }).encodeStep 3
  else s.raise .dimensionMismatch .encode 2 0

/-- The column of the pixel cursor, 8*g + n (R81). -/
def PixelCursor.x (p : PixelCursor) : Nat := Config.groupPixels * p.g + p.n

/-- The layer index of the pixel cursor's group, y*(W/8) + g (R51, R81). -/
def State.groupIndex (s : State) : Nat := s.pixel.y * s.groupsPerRow + s.pixel.g

/-- PixRead failed: ERR_X and ERR_Y take its coordinate, bytes 0 to L-1 of both layers hold any value, PIXEL_ACCESS_ERROR is
raised (R81, R86; log 13). -/
def State.pixelFail (s : State) : State :=
  ({ s with
      errX := BitVec.ofNat 32 s.pixel.x
      errY := BitVec.ofNat 32 s.pixel.y
      primary := memoryForget s.encLength s.primary
      secondary := memoryForget s.encLength s.secondary
      forgotten := s.encLength :: s.forgotten }).raise .pixelAccess .encode 3 0

/-- The group is complete: `PRIMARY[y*(W/8) + g] <- ACC`, then the next group, the next row, or step 4 (R81). -/
def State.storeGroup (acc : Byte) (s : State) : State :=
  if s.pixel.g + 1 < s.groupsPerRow then
    { s with
      primary := memorySet s.primary s.groupIndex acc
      pixel := { y := s.pixel.y, g := s.pixel.g + 1, n := 0, acc := 0 } }
  else if s.pixel.y + 1 < s.encHeight.toNat then
    { s with
      primary := memorySet s.primary s.groupIndex acc
      pixel := { y := s.pixel.y + 1, g := 0, n := 0, acc := 0 } }
  else ({ s with primary := memorySet s.primary s.groupIndex acc }).encodeStep 4

/-- PixRead succeeded with brightness b: ACC takes its bit (R76, R81, R83). -/
def State.pixelOk (b : Nat) (s : State) : State :=
  if s.pixel.n + 1 < Config.groupPixels then
    { s with pixel := { s.pixel with n := s.pixel.n + 1, acc := accumulate s.pixel.acc s.pixel.n (s.isDark b) } }
  else s.storeGroup (accumulate s.pixel.acc s.pixel.n (s.isDark b))

/-- Step 3: one PixRead (R81, R82). -/
def State.encodePixel (s : State) : State :=
  if s.answer.ok then (s.emit (.pixRead s.pixel.x s.pixel.y)).pixelOk (s.brightness s.answer)
  else (s.emit (.pixRead s.pixel.x s.pixel.y)).pixelFail

/-- Step 4: SECONDARY[0..L-1] <- 0x00 (R81, R84). -/
def State.encodeSecondary (s : State) : State :=
  ({ s with secondary := memoryZero s.encLength s.secondary }).encodeStep 5

/-- Step 5: the frame is committed and the operation ends (R81). -/
def State.encodeCommit (s : State) : State :=
  ({ s with
      frameWidth := s.encWidth
      frameHeight := s.encHeight
      frameColor := s.encColor
      frameValid := true }).endOperation

/-- One move of ENCODE. -/
def State.encodeMove (s : State) : State :=
  match s.seq.step with
  | 1 => s.encodeGeometry
  | 2 => s.encodeDimensions
  | 3 => s.encodePixel
  | 4 => s.encodeSecondary
  | 5 => s.encodeCommit
  | _ => s.endOperation

end Sys2Proof.Machine
end

