-- ==== Sys2Proof/Machine/Engine.lean ====
section
/-! DEFINITION. The sequencer: one move of the running operation (R13, R18), the moves until the operation ends or the host's next
input lands (R50, R58; log 3, 4), and a host command (R47). -/

namespace Sys2Proof.Machine

/-- One move of the running operation (R13, R18). -/
def State.move (s : State) : State :=
  match s.seq.op with
  | .none => s.endOperation
  | .encode => s.encodeMove
  | .powerOn => s.controllerMove
  | .sendImage => s.controllerMove
  | .powerOff => s.controllerMove
  | .cleanup => s.controllerMove

/-- An input lands now: its turn has come, or the unit is idle (R50, R58; log 4). -/
def State.inputDue (s : State) : Bool :=
  match s.inputs with
  | [] => false
  | p :: _ => decide (p.after = 0) || !s.busy

/-- One sequencer move has gone before the next input. -/
def State.tick (s : State) : State :=
  match s.inputs with
  | [] => s
  | p :: r => { s with inputs := { p with after := p.after - 1 } :: r }

/-- The moves of the running operation, until it ends or an input lands; `n` bounds them. -/
def State.run : Nat → State → State
  | 0, s => s
  | n + 1, s => if s.busy && !s.inputDue then State.run n s.tick.move else s

/-- More moves than any operation has (R60): the pixels of the largest frame, the items of an operation and of its cleanup,
and four busy waits of at most ceil(T/5) + 1 polls with the delays between them. -/
def State.moveBound (s : State) : Nat := 121000 + 8 * (s.busyTimeout.toNat / Config.busyPollMs + 2)

/-- A host command is a write of CMD. While BUSY = 1 it is dropped (R46). Else it is accepted (R47) and its operation runs, to
its end unless the host's next input lands before that (log 3). -/
def State.hostCommand (op : Op) (s : State) : State :=
  if s.busy then s.dropWrite else State.run s.moveBound (s.acceptCommand op op.firstStep)

/-- A word written to CMD that R66 does not list: dropped while BUSY = 1 (R46), else accepted and illegal (R47, R67). -/
def State.illegalCommand (s : State) : State := if s.busy then s.dropWrite else s.acceptIllegal

end Sys2Proof.Machine
end

