-- ==== Sys2Proof/Machine/HostCommands.lean ====
section
/-! DEFINITION. The meanings of the four host commands (30_encoding.md R66). What their operations do is in Packer.lean and
Controller.lean; each meaning accepts the command and runs its operation (Engine.lean). -/

namespace Sys2Proof.Machine

/-- ENCODE (R81). -/
def execEncode (s : State) : Host.Outcome State Fault Refusal := .next (s.hostCommand .encode)

/-- POWER_ON (R95). -/
def execPowerOn (s : State) : Host.Outcome State Fault Refusal := .next (s.hostCommand .powerOn)

/-- SEND_IMAGE (R97). -/
def execSendImage (s : State) : Host.Outcome State Fault Refusal := .next (s.hostCommand .sendImage)

/-- POWER_OFF (R101). -/
def execPowerOff (s : State) : Host.Outcome State Fault Refusal := .next (s.hostCommand .powerOff)

end Sys2Proof.Machine
end

