-- ==== Sys2Proof/Machine/Wire.lean ====
section
/-! DEFINITION. The meanings of the eleven panel wire commands (43_panel_commands.md R108 to R119): each is the one BusWrite of
the item the cursor stands at. Which item that is, and with which operand bytes, is the sequencer's fetch (Fetch.lean). -/

namespace Sys2Proof.Machine

/-- The write of a wire command by its item (R108); at any other cursor position the spec gives the command no effect (log 15). -/
def State.writeAt (w : WireItem) (bytes : List Byte) (s : State) : Host.Outcome State Fault Refusal :=
  if s.atWireItem w then .next (s.wireWrite w bytes) else .fault .wireCommandOffItem

/-- SOFT_RESET (R109): POWER_ON step 3 item 0. -/
def execSoftReset (s : State) : Host.Outcome State Fault Refusal := s.writeAt .softReset [0x00, 0x0E]

/-- TEMP_COMP (R110): POWER_ON step 4 item 0. The byte is sent as it stands (R69). -/
def execTempComp (code : Byte) (s : State) : Host.Outcome State Fault Refusal := s.writeAt .tempComp [0xE5, code]

/-- ACTIVATE_A (R111): POWER_ON step 5 item 0. -/
def execActivateA (s : State) : Host.Outcome State Fault Refusal := s.writeAt .activate [0xE0, 0x02]

/-- ACTIVATE_B (R112): POWER_ON step 5 item 0. -/
def execActivateB (s : State) : Host.Outcome State Fault Refusal := s.writeAt .activate [0xCF, 0x02]

/-- PANEL_SETTINGS (R113): POWER_ON step 6 item 0; when it succeeds SESSION is set. -/
def execPanelSettings (s : State) : Host.Outcome State Fault Refusal := s.writeAt .panelSettings [0x00, 0x0F, 0x89]

/-- DEEP_SLEEP (R114): step 1 item 0 of POWER_OFF and of CLEANUP. -/
def execDeepSleep (s : State) : Host.Outcome State Fault Refusal := s.writeAt .deepSleep [0x02, 0x02]

/-- LAYER_SEL_PRIMARY (R115): SEND_IMAGE step 2 item 0. -/
def execLayerSelPrimary (s : State) : Host.Outcome State Fault Refusal := s.writeAt .selPrimary [0x10]

/-- LAYER_SEL_SECONDARY (R116): SEND_IMAGE step 2 item 6. -/
def execLayerSelSecondary (s : State) : Host.Outcome State Fault Refusal := s.writeAt .selSecondary [0x13]

/-- POWER_ON_DISPLAY (R118): SEND_IMAGE step 4 item 0. -/
def execPowerOnDisplay (s : State) : Host.Outcome State Fault Refusal := s.writeAt .powerOnDisplay [0x04, 0x04]

/-- REFRESH (R119): SEND_IMAGE step 5 item 0, after LAST_REFRESH is recorded. -/
def execRefresh (s : State) : Host.Outcome State Fault Refusal := s.writeAt .refresh [0x12, 0x12]

/-- LAYER_DATA (R117): SEND_IMAGE step 2 item 4 (PRIMARY) or item 10 (SECONDARY). -/
def execLayerData (data : List Byte) (s : State) : Host.Outcome State Fault Refusal :=
  if s.atWireItem .dataPrimary then s.writeAt .dataPrimary data else s.writeAt .dataSecondary data

end Sys2Proof.Machine
end

