-- ==== Sys2Proof/Syntax.lean ====
section
/-! DEFINITION. The instructions of the unit: one constructor for each row of spec/opcode_table.json (30_encoding.md R66, R68).
The first four are host commands, written to CMD; the other eleven are panel wire commands, each one BusWrite. -/

namespace Sys2Proof

/-- The rows of the opcode table, in its order. -/
inductive Instr where
  /-- ENCODE, 0x00000001 (R81). -/
  | encode
  /-- POWER_ON, 0x00000010 (R95). -/
  | powerOn
  /-- SEND_IMAGE, 0x00000011 (R97). -/
  | sendImage
  /-- POWER_OFF, 0x00000012 (R101). -/
  | powerOff
  /-- SOFT_RESET, `00 0E` (R109). -/
  | softReset
  /-- TEMP_COMP, `E5 xx`; the operand is `xx` (R69, R110). -/
  | tempComp (code : Byte)
  /-- ACTIVATE_A, `E0 02` (R111). -/
  | activateA
  /-- ACTIVATE_B, `CF 02` (R112). -/
  | activateB
  /-- PANEL_SETTINGS, `00 0F 89` (R113). -/
  | panelSettings
  /-- DEEP_SLEEP, `02 02` (R114). -/
  | deepSleep
  /-- LAYER_SEL_PRIMARY, `10` (R115). -/
  | layerSelPrimary
  /-- LAYER_SEL_SECONDARY, `13` (R116). -/
  | layerSelSecondary
  /-- POWER_ON_DISPLAY, `04 04` (R118). -/
  | powerOnDisplay
  /-- REFRESH, `12 12` (R119). -/
  | refresh
  /-- LAYER_DATA, the payload bytes themselves (R71, R117). -/
  | layerData (data : List Byte)
  deriving DecidableEq, Repr

/-- Where an instruction's bytes stand: R73 says that a command is identified by its event position, never by its content, so
the decoder is told the position (log 1). -/
inductive Channel where
  /-- the four bytes of a word written to CMD (format HC) -/
  | hostCommand
  /-- the bytes of one BusWrite outside the payload bracket (formats W1, W2, W3) -/
  | wireCommand
  /-- the bytes of one BusWrite inside the payload bracket (format WP) -/
  | wirePayload
  deriving DecidableEq, Repr

/-- The channel an instruction is written on (R64). -/
def Instr.channel : Instr → Channel
  | .encode => .hostCommand
  | .powerOn => .hostCommand
  | .sendImage => .hostCommand
  | .powerOff => .hostCommand
  | .softReset => .wireCommand
  | .tempComp _ => .wireCommand
  | .activateA => .wireCommand
  | .activateB => .wireCommand
  | .panelSettings => .wireCommand
  | .deepSleep => .wireCommand
  | .layerSelPrimary => .wireCommand
  | .layerSelSecondary => .wireCommand
  | .powerOnDisplay => .wireCommand
  | .refresh => .wireCommand
  | .layerData _ => .wirePayload

end Sys2Proof
end

