-- ==== Sys2Proof/Machine/Dispatch.lean ====
section
/-! DEFINITION. The dispatch: one meaning for each row of spec/opcode_table.json. -/

namespace Sys2Proof.Machine

def exec (i : Instr) (s : State) : Host.Outcome State Fault Refusal :=
  match i with
  -- host commands (R66)
  | .encode => Sys2Proof.Machine.execEncode s
  | .powerOn => Sys2Proof.Machine.execPowerOn s
  | .sendImage => Sys2Proof.Machine.execSendImage s
  | .powerOff => Sys2Proof.Machine.execPowerOff s
  -- panel wire commands (R68)
  | .softReset => Sys2Proof.Machine.execSoftReset s
  | .tempComp code => Sys2Proof.Machine.execTempComp code s
  | .activateA => Sys2Proof.Machine.execActivateA s
  | .activateB => Sys2Proof.Machine.execActivateB s
  | .panelSettings => Sys2Proof.Machine.execPanelSettings s
  | .deepSleep => Sys2Proof.Machine.execDeepSleep s
  | .layerSelPrimary => Sys2Proof.Machine.execLayerSelPrimary s
  | .layerSelSecondary => Sys2Proof.Machine.execLayerSelSecondary s
  | .powerOnDisplay => Sys2Proof.Machine.execPowerOnDisplay s
  | .refresh => Sys2Proof.Machine.execRefresh s
  | .layerData data => Sys2Proof.Machine.execLayerData data s

end Sys2Proof.Machine
end

