-- ==== Sys2Proof/WellFormed.lean ====
section
/-! DEFINITION. Which instruction terms stand for an encoding. Only LAYER_DATA has a term that does not: a payload is a
non-empty byte sequence (20_memory.md R54) of at most LAYER_CAPACITY bytes (41_frame_packer.md R77, 43_panel_commands.md R117).
TEMP_COMP takes every byte (30_encoding.md R69). -/

namespace Sys2Proof

/-- A payload a layer can have: L bytes with 1 ≤ L ≤ LAYER_CAPACITY (R54, R77, R78). -/
abbrev payloadLengthOk (n : Nat) : Prop := 1 ≤ n ∧ n ≤ Config.layerCapacity

/-- The well-formed instructions: every term but a LAYER_DATA with no byte or with more bytes than a layer has. -/
def Instr.wellFormed : Instr → Bool
  | .layerData data => decide (payloadLengthOk data.length)
  | .encode => true
  | .powerOn => true
  | .sendImage => true
  | .powerOff => true
  | .softReset => true
  | .tempComp _ => true
  | .activateA => true
  | .activateB => true
  | .panelSettings => true
  | .deepSleep => true
  | .layerSelPrimary => true
  | .layerSelSecondary => true
  | .powerOnDisplay => true
  | .refresh => true

end Sys2Proof
end

