-- ==== Sys2Proof/Decode.lean ====
section
/-! DEFINITION. The decoder (total on any bytes, rejecting by name) and the encoder, both written from the tables of
30_encoding.md R66 and R68. A host command is the four bytes of the word written to CMD, little-endian (20_memory.md R43); a wire
command is the bytes of one BusWrite, byte 0 first; a payload is identified by its event position, never by its content (R73). -/

namespace Sys2Proof

/-- Why bytes are no instruction on a channel. -/
inductive DecodeError where
  /-- a word of CMD outside R66: R67 calls it illegal -/
  | illegalCommand
  /-- not the four bytes of a CMD write (R42, R65) -/
  | notACommandWord
  /-- no wire command of R68 has these bytes -/
  | notAWireCommand
  /-- no byte, or more bytes than a layer has (R54, R77) -/
  | notAPayload
  deriving DecidableEq, Repr

/-- The word of four little-endian bytes (R43). -/
def wordOfBytes (b0 b1 b2 b3 : Byte) : Word := b3 ++ b2 ++ b1 ++ b0

/-- The four little-endian bytes of a word (R43). -/
def bytesOfWord (w : Word) : List Byte :=
  [w.extractLsb' 0 8, w.extractLsb' 8 8, w.extractLsb' 16 8, w.extractLsb' 24 8]

/-- R65, R66, R67: OPCODE is bits [7:0] and bits [31:8] must be 0. -/
def decodeCommand (v : Word) : Except DecodeError Instr :=
  if v.extractLsb' 8 24 ≠ 0 then .error .illegalCommand
  else
    match (v.extractLsb' 0 8).toNat with
    | 0x01 => .ok .encode
    | 0x10 => .ok .powerOn
    | 0x11 => .ok .sendImage
    | 0x12 => .ok .powerOff
    | _ => .error .illegalCommand

/-- The four bytes of a CMD write (R42, R43). -/
def decodeHost : List Byte → Except DecodeError Instr
  | [b0, b1, b2, b3] => decodeCommand (wordOfBytes b0 b1 b2 b3)
  | _ => .error .notACommandWord

/-- A one-byte wire command (format W1, R68). -/
def decodeW1 (b0 : Nat) : Except DecodeError Instr :=
  match b0 with
  | 0x10 => .ok .layerSelPrimary
  | 0x13 => .ok .layerSelSecondary
  | _ => .error .notAWireCommand

/-- A two-byte wire command (format W2, R68). -/
def decodeW2 (b0 : Nat) (b1 : Byte) : Except DecodeError Instr :=
  match b0, b1.toNat with
  | 0xE5, _ => .ok (.tempComp b1)
  | 0x00, 0x0E => .ok .softReset
  | 0xE0, 0x02 => .ok .activateA
  | 0xCF, 0x02 => .ok .activateB
  | 0x02, 0x02 => .ok .deepSleep
  | 0x04, 0x04 => .ok .powerOnDisplay
  | 0x12, 0x12 => .ok .refresh
  | _, _ => .error .notAWireCommand

/-- A three-byte wire command (format W3, R68). -/
def decodeW3 (b0 b1 b2 : Nat) : Except DecodeError Instr :=
  match b0, b1, b2 with
  | 0x00, 0x0F, 0x89 => .ok .panelSettings
  | _, _, _ => .error .notAWireCommand

/-- The bytes of one BusWrite outside the payload bracket (R68). -/
def decodeWire : List Byte → Except DecodeError Instr
  | [b0] => decodeW1 b0.toNat
  | [b0, b1] => decodeW2 b0.toNat b1
  | [b0, b1, b2] => decodeW3 b0.toNat b1.toNat b2.toNat
  | _ => .error .notAWireCommand

/-- The bytes of one BusWrite inside the payload bracket (R71). -/
def decodePayload (data : List Byte) : Except DecodeError Instr :=
  if payloadLengthOk data.length then .ok (.layerData data) else .error .notAPayload

/-- The decoder: the channel, which is the event position (R73), and the bytes. -/
def decode (c : Channel) (bytes : List Byte) : Except DecodeError Instr :=
  match c with
  | .hostCommand => decodeHost bytes
  | .wireCommand => decodeWire bytes
  | .wirePayload => decodePayload bytes

/-- The encoder, from the tables of R66 and R68: the bytes of an instruction in the order they are stored or sent. -/
def encode : Instr → List Byte
  | .encode => bytesOfWord 0x00000001
  | .powerOn => bytesOfWord 0x00000010
  | .sendImage => bytesOfWord 0x00000011
  | .powerOff => bytesOfWord 0x00000012
  | .softReset => [0x00, 0x0E]
  | .tempComp code => [0xE5, code]
  | .activateA => [0xE0, 0x02]
  | .activateB => [0xCF, 0x02]
  | .panelSettings => [0x00, 0x0F, 0x89]
  | .deepSleep => [0x02, 0x02]
  | .layerSelPrimary => [0x10]
  | .layerSelSecondary => [0x13]
  | .powerOnDisplay => [0x04, 0x04]
  | .refresh => [0x12, 0x12]
  | .layerData data => data

/-- The `n` bytes of a table number, byte 0 in the most significant position, as R64 says the table writes a wire command. -/
def tableBytes : Nat → Nat → List Byte
  | 0, _ => []
  | n + 1, w => tableBytes n (w / 256) ++ [BitVec.ofNat 8 w]

/-- The channel and the bytes of a table row's word of `nbits` bits (log 1). A row of 32 bits is a word for CMD; one of 8, 16 or
24 bits is a wire command; the LAYER_DATA row has no opcode bits: it is read from a row of no bits, or of one zero byte, which
is no wire command (one payload byte, 0), or of 40 bits or more. -/
def tableRow (nbits w : Nat) : Option (Channel × List Byte) :=
  if nbits = 32 then some (.hostCommand, bytesOfWord (BitVec.ofNat 32 w))
  else if nbits = 0 ∨ (nbits = 8 ∧ w = 0) then some (.wirePayload, [0])
  else if nbits = 8 ∨ nbits = 16 ∨ nbits = 24 then some (.wireCommand, tableBytes (nbits / 8) w)
  else if 32 < nbits ∧ nbits % 8 = 0 then some (.wirePayload, tableBytes (nbits / 8) w)
  else none

/-- The instruction the decoder reads from a table row's word, its bits numbered as spec/opcode_table.json numbers them. -/
def decodeTableWord (nbits w : Nat) : Option Instr :=
  match tableRow nbits w with
  | some (c, bytes) => (decode c bytes).toOption
  | none => none

end Sys2Proof
end

