-- ==== Sys2Proof/Machine/HostPort.lean ====
section
/-! DEFINITION. The host's accesses (20_memory.md R41 to R50) and the other inputs from outside the unit. A write of CMD is not
here: the step decodes it (Step.lean). -/

namespace Sys2Proof.Machine

/-! ### The address map (R41) -/

/-- First offset of the PRIMARY window. -/
def primaryBase : Nat := 0x10000
/-- First offset of the SECONDARY window. -/
def secondaryBase : Nat := 0x20000
/-- One past the last offset of the host register space. -/
def hostSpaceEnd : Nat := 0x30000

/-- The accesses that R42 admits: 4 bytes and 4-aligned, or 1 byte in a window or its reserved tail. -/
def accessAdmitted (a n : Nat) : Bool :=
  decide (a < hostSpaceEnd) && (decide (n = 4 ∧ a % 4 = 0) || decide (n = 1 ∧ primaryBase ≤ a))

/-! ### Reads -/

/-- The register at an offset below 0x10000 (R20, R41); a reserved offset reads 0, and so does CMD (R21). Each half of LAST_REFRESH
is read as it stands (R49), so a pair read while BUSY = 1 tears exactly when REFRESH is attempted between its two reads: the
model's choice, where 93_implementation_defined.md section 2 allows any value (log 24). -/
def State.readRegister (s : State) (a : Nat) : Word :=
  match a with
  | 0x004 => s.statusWord
  | 0x008 => s.error.word
  | 0x00C => s.errX
  | 0x010 => s.errY
  | 0x014 => s.encWidth
  | 0x018 => s.encHeight
  | 0x01C => colorWord s.encColor
  | 0x020 => s.frameWidth
  | 0x024 => s.frameHeight
  | 0x028 => colorWord s.frameColor
  | 0x02C => s.panelWidth
  | 0x030 => s.panelHeight
  | 0x034 => tempWord s.tempCode
  | 0x038 => s.busyTimeout
  | 0x03C => s.lastRefresh.extractLsb' 0 32
  | 0x040 => s.lastRefresh.extractLsb' 32 32
  | _ => 0

/-- The layer and the index of an offset in a window (R41); none in a reserved tail. -/
def windowByteOf (a : Nat) : Option (Layer × Nat) :=
  if a < secondaryBase then
    if a - primaryBase < Config.layerCapacity then some (.primary, a - primaryBase) else none
  else if a - secondaryBase < Config.layerCapacity then some (.secondary, a - secondaryBase)
  else none

/-- One byte of the windows (R41, R44): the layer's byte while BUSY = 0, any value while BUSY = 1 (log 14), 0 in a tail. -/
def State.readWindowByte (s : State) (a : Nat) : Byte :=
  match windowByteOf a with
  | some (l, i) => if s.busy then Config.busyWindowByte s.replies.length a else s.layerByte l i
  | none => 0

/-- An admitted read (R42, R43): a register, or window bytes little-endian. -/
def State.readValue (s : State) (a n : Nat) : Word :=
  if a < primaryBase then s.readRegister a
  else if n = 1 then (0#24) ++ s.readWindowByte a
  else s.readWindowByte (a + 3) ++ s.readWindowByte (a + 2) ++ s.readWindowByte (a + 1) ++ s.readWindowByte a

/-- A host read changes nothing of the unit (R49); the host has its answer. -/
def State.hostRead (a n : Nat) (s : State) : State :=
  { s with replies := s.replies ++ [{ a := a, n := n, value := s.readValue a n }] }

/-! ### Writes -/

/-- The RW registers whose write condition is BUSY = 0 (R20, R46). -/
def commandOperand (a : Nat) : Bool := decide (a = 0x014) || decide (a = 0x018) || decide (a = 0x01C) || decide (a = 0x038)

/-- The RW registers whose write condition is BUSY = 0 and SESSION = 0 (R20, R46). -/
def sessionOperand (a : Nat) : Bool := decide (a = 0x02C) || decide (a = 0x030) || decide (a = 0x034)

/-- The store of an RW register; reserved bits are dropped, and every other offset ignores the write (R45). -/
def State.storeRegister (a : Nat) (v : Word) (s : State) : State :=
  match a with
  | 0x014 => { s with encWidth := v }
  | 0x018 => { s with encHeight := v }
  | 0x01C => { s with encColor := v.getLsbD 0 }
  | 0x02C => { s with panelWidth := v }
  | 0x030 => { s with panelHeight := v }
  | 0x034 => { s with tempCode := v.extractLsb' 0 8 }
  | 0x038 => { s with busyTimeout := v }
  | _ => s

/-- An admitted write other than of CMD (R45, R46): dropped with HAZARD when its write condition fails, else stored. -/
def State.hostWrite (a : Nat) (v : Word) (s : State) : State :=
  if (commandOperand a && s.busy) || (sessionOperand a && (s.busy || s.session)) then s.dropWrite
  else s.storeRegister a v

/-! ### Inputs -/

/-- An input other than a write of CMD. -/
def State.takeInput (i : Input) (s : State) : Host.Outcome State Fault Refusal :=
  match i with
  | .read a n => if accessAdmitted a n then .next (s.hostRead a n) else .refused .accessNotAdmitted
  | .write a n v => if accessAdmitted a n then .next (s.hostWrite a v) else .refused .accessNotAdmitted
  | .unitReset => if s.quiescent then .next s.unitReset else .refused .resetNotQuiescent
  | .source w h => .next { s with srcWidth := w, srcHeight := h }
  | .elapse ms => .next { s with now := s.now + ms }

end Sys2Proof.Machine
end

