-- ==== Sys2Proof/Machine/Fetch.lean ====
section
/-! DEFINITION. What the next step is of. The unit has no program counter and fetches no code (10_state.md R18, 20_memory.md R62):
a step takes the host's next input when it lands, and a write of CMD holds a host command's bytes; else it makes one move of the
running operation, and an item that writes the bus holds a wire command's bytes. -/

namespace Sys2Proof.Machine

/-- What the next step is of. -/
inductive Fetched where
  /-- bytes to decode: a CMD write's, or the ones the cursor's item writes -/
  | bytes (c : Channel) (data : List Byte)
  /-- another input -/
  | input (i : Input)
  /-- an item that writes no wire command -/
  | item
  /-- nothing to do -/
  | wait
  deriving DecidableEq, Repr

/-- The position of an item's bytes (R73): the payload bracket, or not. -/
def WireItem.channel : WireItem → Channel
  | .dataPrimary => .wirePayload
  | .dataSecondary => .wirePayload
  | .softReset => .wireCommand
  | .tempComp => .wireCommand
  | .activate => .wireCommand
  | .panelSettings => .wireCommand
  | .deepSleep => .wireCommand
  | .selPrimary => .wireCommand
  | .selSecondary => .wireCommand
  | .powerOnDisplay => .wireCommand
  | .refresh => .wireCommand

/-- The wire command's item at the cursor, unless CLEANUP skips it (R104). -/
def State.wireItemHere (s : State) : Option WireItem :=
  match actionAt s.seq with
  | some (.wire w) => if s.skips (.wire w) then none else some w
  | _ => none

/-- An input that lands (R42, R47): a 4-byte write at offset 0 is a write of CMD. -/
def fetchInput (i : Input) : Fetched :=
  match i with
  | .write 0 4 v => .bytes .hostCommand (bytesOfWord v)
  | _ => .input i

/-- What the next step is of. -/
def State.fetch (s : State) : Fetched :=
  if s.inputDue then
    match s.inputs with
    | p :: _ => fetchInput p.input
    | [] => .wait
  else if s.busy then
    match s.wireItemHere with
    | some w => .bytes w.channel (s.wireBytes w)
    | none => .item
  else .wait

/-- The queue of inputs is replaced. -/
def State.setInputs (q : List Pending) (s : State) : State := { s with inputs := q }

/-- The state the fetched instruction or input runs at: the input that landed is taken off the queue, or one move is counted
towards the next one. -/
def State.fetched (s : State) : State := if s.inputDue then s.setInputs s.inputs.tail else s.tick

/-- Bytes that are no instruction: an illegal host command (R47, R67). The bytes of an item that writes the bus are those of an
instruction wherever a run goes; the move stands here so that the step is total. -/
def State.notDecoded (c : Channel) (s : State) : State :=
  match c with
  | .hostCommand => s.illegalCommand
  | .wireCommand => s.move
  | .wirePayload => s.move

/-! ### Placing an instruction where the next step fetches it (log 2) -/

/-- The next input waits for at least one move. -/
def State.holdInputs (s : State) : State :=
  match s.inputs with
  | [] => s
  | p :: r => { s with inputs := { p with after := p.after + 1 } :: r }

/-- An operation runs, with its cursor at an item. -/
def State.atItem (op : Op) (step item : Nat) (s : State) : State :=
  { s.holdInputs with busy := true, seq := { op := op, step := step, item := item }, wait := .idle }

/-- A geometry for which the item writes ACTIVATE_A, or ACTIVATE_B: the one there is where it will do, else 400×300 for
ACTIVATE_A and 8×1 for ACTIVATE_B, which is right for the default table (R70). -/
def State.placeGeometry (activateA : Bool) (s : State) : State :=
  if s.activatesA = activateA then s
  else if activateA then
    { s with panelWidth := BitVec.ofNat 32 Config.refWidth, panelHeight := BitVec.ofNat 32 Config.refHeight }
  else { s with panelWidth := 8, panelHeight := 1 }

/-- The bytes of a payload, listed as a layer holds them. -/
def payloadCells (data : List Byte) : List Host.Cell := data.zipIdx.map (fun c => (c.2, c.1))

/-- The state in which the next step fetches instruction `i`: a host command stands in a CMD write that lands at once; a wire
command stands at the item that writes it, with the registers that give the item these bytes. -/
def State.placeInstr (i : Instr) (s : State) : State :=
  match i with
  | .softReset => s.atItem .powerOn 3 0
  | .tempComp code => { s.atItem .powerOn 4 0 with tempCode := code }
  | .activateA => (s.placeGeometry true).atItem .powerOn 5 0
  | .activateB => (s.placeGeometry false).atItem .powerOn 5 0
  | .panelSettings => s.atItem .powerOn 6 0
  | .deepSleep => s.atItem .powerOff 1 0
  | .layerSelPrimary => s.atItem .sendImage 2 0
  | .layerSelSecondary => s.atItem .sendImage 2 6
  | .powerOnDisplay => s.atItem .sendImage 4 0
  | .refresh => s.atItem .sendImage 5 0
  | .layerData data =>
    { s.atItem .sendImage 2 4 with
      panelWidth := 8
      panelHeight := BitVec.ofNat 32 data.length
      primary := payloadCells data }
  | .encode => s
  | .powerOn => s
  | .sendImage => s
  | .powerOff => s

/-- A write of CMD that lands at the next step. -/
def State.placeCommand (v : Word) (s : State) : State :=
  { s with inputs := { after := 0, input := .write 0 4 v } :: s.inputs }

end Sys2Proof.Machine
end

