-- ==== Sys2Proof/Machine/Step.lean ====
section
/-! DEFINITION. One step of the machine: fetch, decode, execute (Fetch.lean says what is fetched). -/

namespace Sys2Proof.Machine

/-- One step. A machine whose parameter set breaks R9 is refused. -/
def step (s : State) : Host.Outcome State Fault Refusal :=
  if paramsOk s.params then
    match s.fetch with
    | .bytes c data =>
      match decode c data with
      | .ok i => exec i s.fetched
      | .error _ => .next (s.fetched.notDecoded c)
    | .input i => s.fetched.takeInput i
    | .item => .next s.fetched.move
    | .wait => .next s
  else .refused .parametersRefused

/-- `s` with a table row's word placed where the next step fetches its instruction (log 2). -/
def State.withFetchWord (s : State) (nbits w : Nat) : State :=
  match nbits with
  | 32 => s.placeCommand (BitVec.ofNat 32 w)
  | _ =>
    match decodeTableWord nbits w with
    | some i => s.placeInstr i
    | none => s

end Sys2Proof.Machine
end

