-- ==== Sys2Proof/Safety.lean ====
section
/-! DEFINITION. What a safe run of the unit is, in the terms the statements use: the canonical form of the layers, the cursor and
BUSY, the frame, the session's handles, the refresh interval, the lines as the trace shows them, and the events the unit may
issue. Each is a property of one state that every step is meant to keep. -/

namespace Sys2Proof.Machine

/-! ### The layers -/

/-- Both layers are in canonical form (log 12). -/
abbrev memoriesCanonical (s : State) : Prop := memoryWf s.primary ∧ memoryWf s.secondary

/-- Byte i of a layer has been left a value by an ENCODE. -/
def listed (m : List Host.Cell) (i : Nat) : Prop := ∃ b, memoryGet m i = some b

/-- Bytes 0 to l-1 of PRIMARY are listed. -/
def primaryHeld (l : Nat) (s : State) : Prop := ∀ i, i < l → listed s.primary i

/-- Bytes 0 to l-1 of SECONDARY are 0x00 (R84). -/
def secondaryZero (l : Nat) (s : State) : Prop := ∀ i, i < l → memoryGet s.secondary i = some 0

/-- L of the frame's geometry (R77). -/
def State.frameLength (s : State) : Nat := layerLength s.frameWidth.toNat s.frameHeight.toNat

/-- FRAME_VALID means that a whole frame is held: its geometry is valid, every PRIMARY byte below L was written by an ENCODE and
every SECONDARY byte below L is 0x00 (R22, R34, R84). -/
def frameWhole (s : State) : Prop :=
  s.frameValid = true →
    geometryValid s.frameWidth.toNat s.frameHeight.toNat = true ∧ primaryHeld s.frameLength s ∧ secondaryZero s.frameLength s

/-- ENCODE has written the part of the frame its cursor has passed (R19, R81). -/
def encodeProgress (s : State) : Prop :=
  s.seq.op = .encode →
    match s.seq.step with
    | 2 => s.frameValid = false ∧ geometryValid s.encWidth.toNat s.encHeight.toNat = true
    | 3 =>
      s.frameValid = false ∧ geometryValid s.encWidth.toNat s.encHeight.toNat = true ∧
        s.pixel.y < s.encHeight.toNat ∧ s.pixel.g < s.groupsPerRow ∧ s.pixel.n < 8 ∧ primaryHeld s.groupIndex s
    | 4 => s.frameValid = false ∧ geometryValid s.encWidth.toNat s.encHeight.toNat = true ∧ primaryHeld s.encLength s
    | 5 =>
      s.frameValid = false ∧ geometryValid s.encWidth.toNat s.encHeight.toNat = true ∧ primaryHeld s.encLength s ∧
        secondaryZero s.encLength s
    | _ => True

/-- The invariant of the frame. -/
def frameInvariant (s : State) : Prop := frameWhole s ∧ encodeProgress s ∧ (s.seq.op = .encode → s.busy = true)

/-! ### The cursor -/

/-- BUSY = 1 exactly when op ≠ NONE, and between operations the cursor is (NONE, 0, 0) (R18). -/
def busyMatchesCursor (s : State) : Prop :=
  (s.busy = true ↔ s.seq.op ≠ .none) ∧ (s.seq.op = .none → s.seq = { op := .none, step := 0, item := 0 })

/-- The cursor stands at an item of the running operation (R18). -/
def cursorLegal (s : State) : Prop :=
  match s.seq.op with
  | .none => True
  | .encode => 1 ≤ s.seq.step ∧ s.seq.step ≤ 5 ∧ s.seq.item = 0
  | .powerOn => (actionAt s.seq).isSome = true
  | .sendImage => (actionAt s.seq).isSome = true
  | .powerOff => (actionAt s.seq).isSome = true
  | .cleanup => (actionAt s.seq).isSome = true

/-- The invariant of the cursor. -/
def cursorInvariant (s : State) : Prop := busyMatchesCursor s ∧ cursorLegal s

/-! ### The session's handles -/

/-- Every line is exported and the bus is open. -/
def holdsAll (s : State) : Prop :=
  s.exported = { power := true, reset := true, cs := true, dc := true, busy := true } ∧ s.busOpen = true

/-- POWER_ON has acquired what its cursor has passed in step 1 (R95). -/
def acquired (s : State) : Prop :=
  (s.seq.step = 1 →
    (1 ≤ s.seq.item → s.exported.power = true) ∧ (2 ≤ s.seq.item → s.exported.reset = true) ∧
    (3 ≤ s.seq.item → s.exported.cs = true) ∧ (4 ≤ s.seq.item → s.exported.dc = true) ∧
    (5 ≤ s.seq.item → s.exported.busy = true) ∧ (11 ≤ s.seq.item → s.busOpen = true)) ∧
  (2 ≤ s.seq.step → holdsAll s)

/-- The cursor is past the first item of the operation, the one that tests SESSION (R95, R97, R101). -/
def pastSessionTest (s : State) : Prop := ¬ (s.seq.step = s.seq.op.firstStep ∧ s.seq.item = 0)

/-- The operations of the controller agree with SESSION once they have tested it (R106). -/
def operationAgreesWithSession (s : State) : Prop :=
  (s.seq.op = .powerOn → pastSessionTest s → s.session = false) ∧
  (s.seq.op = .sendImage → pastSessionTest s → s.session = true) ∧
  (s.seq.op = .powerOff → pastSessionTest s → s.session = true)

/-- While SESSION = 1 and no shutdown runs, all five lines are exported and the bus is open (R24, R35, R127). -/
def sessionInvariant (s : State) : Prop :=
  cursorInvariant s ∧ operationAgreesWithSession s ∧
  (s.session = true → s.seq.op ≠ .powerOff → s.seq.op ≠ .cleanup → holdsAll s) ∧
  (s.seq.op = .powerOn → acquired s)

/-! ### The refresh interval -/

/-- The position of the REFRESH write (R97 step 5 item 0). -/
def refreshPos : Cursor := { op := .sendImage, step := 5, item := 0 }

/-- The times at which the REFRESH write was attempted, oldest first. -/
def refreshTimes (t : List Entry) : List Nat := (t.filter (fun e => e.pos = refreshPos)).map Entry.time

/-- SEND_IMAGE is past its refresh guard and has not yet attempted the REFRESH write. -/
def guardPassed (s : State) : Prop :=
  s.seq.op = .sendImage ∧ ((2 ≤ s.seq.step ∧ s.seq.step ≤ 4) ∨ (s.seq.step = 5 ∧ s.seq.item = 0))

/-- Any two attempts to write REFRESH are at least 180 000 ms apart, LAST_REFRESH is the time of the latest, and an operation past
its guard is far enough from it (R33, R98). -/
def refreshInvariant (s : State) : Prop :=
  (refreshTimes s.trace).Pairwise (fun a b => a + Config.minRefreshIntervalMs ≤ b) ∧
  (∀ t, (refreshTimes s.trace).getLast? = some t →
    t ≤ s.now ∧ s.lastRefreshValid = true ∧ s.lastRefresh = BitVec.ofNat 64 t ∧
      (guardPassed s → t + Config.minRefreshIntervalMs ≤ s.now))

/-! ### The lines, derived from the trace (R35, R56; log 16) -/

/-- What the events on a line leave it as. -/
inductive LineState where
  | released
  | exportedOnly
  | output (v : Bool)
  | input
  deriving DecidableEq, Repr

/-- One event's effect on line `n` (R56). `Set` on a line that is no output leaves its direction (R102). The model's
choices (log 16), where R12 gives Fail no further detail and R56 says of Export only that its bit is set: an event that fails, be it
an Export, an Unexport, a SetDir or a Set, leaves the direction and the level as they were; and an Export that succeeds gives the
line no direction and no level, also where it was still exported (R96). -/
def lineAfter (n : Nat) (st : LineState) (e : Entry) : LineState :=
  if e.outcome = .fail then st
  else
    match e.event with
    | .exportLine m => if m = n then .exportedOnly else st
    | .unexportLine m => if m = n then .released else st
    | .setDir m .outHigh => if m = n then .output true else st
    | .setDir m .outLow => if m = n then .output false else st
    | .setDir m .input => if m = n then .input else st
    | .set m v =>
      match st with
      | .output w => if m = n then .output v else .output w
      | .released => .released
      | .exportedOnly => .exportedOnly
      | .input => .input
    | .pixRead _ _ => st
    | .get _ => st
    | .busOpen _ => st
    | .busConfig _ _ _ => st
    | .busWrite _ => st
    | .busClose => st
    | .delay _ => st

/-- A line as a trace leaves it. -/
def lineView (n : Nat) (t : List Entry) : LineState := t.foldl (lineAfter n) .released

/-- A line of the machine as its trace leaves it. -/
def State.lineState (s : State) (l : Line) : LineState := lineView (s.lineNumber l) s.trace

/-- The lines of an Active session outside a running operation (R107). -/
def sessionLines (s : State) : Prop :=
  s.lineState .power = .output true ∧ s.lineState .reset = .output true ∧ s.lineState .cs = .output false ∧
    s.lineState .dc = .output false ∧ s.lineState .busy = .input

/-- LINE_CS at an item of SEND_IMAGE (R97 step 2, R107): raised by items 1 and 7, lowered by items 3 and 9. -/
def csAt (step item : Nat) : Bool := decide (step = 2 ∧ (item = 2 ∨ item = 3 ∨ item = 8 ∨ item = 9))

/-- LINE_DC at an item of SEND_IMAGE: raised by items 2 and 8, lowered by items 5 and 11. -/
def dcAt (step item : Nat) : Bool := decide (step = 2 ∧ ((3 ≤ item ∧ item ≤ 5) ∨ (9 ≤ item ∧ item ≤ 11)))

/-- The lines at an item of SEND_IMAGE, before that item's event. -/
def sendImageLines (s : State) : Prop :=
  s.lineState .power = .output true ∧ s.lineState .reset = .output true ∧
    s.lineState .cs = .output (csAt s.seq.step s.seq.item) ∧ s.lineState .dc = .output (dcAt s.seq.step s.seq.item) ∧
    s.lineState .busy = .input

/-- The level of LINE_RESET at an item of POWER_ON's steps 2 to 6 (R95 step 2). -/
def resetAt (step item : Nat) : Bool := decide (step ≠ 2 ∨ item = 2 ∨ item = 3 ∨ 6 ≤ item)

/-- The lines at an item of POWER_ON, before that item's event (R95 steps 1 and 2). -/
def powerOnLines (s : State) : Prop :=
  (s.seq.step = 1 →
    (6 ≤ s.seq.item → s.lineState .power = .output true) ∧ (7 ≤ s.seq.item → s.lineState .reset = .output false) ∧
    (8 ≤ s.seq.item → s.lineState .cs = .output false) ∧ (9 ≤ s.seq.item → s.lineState .dc = .output false) ∧
    (10 ≤ s.seq.item → s.lineState .busy = .input)) ∧
  (2 ≤ s.seq.step →
    s.lineState .power = .output true ∧ s.lineState .reset = .output (resetAt s.seq.step s.seq.item) ∧
      s.lineState .cs = .output false ∧ s.lineState .dc = .output false ∧ s.lineState .busy = .input)

/-- The lines wherever a session's operations stand (R95, R97, R107). -/
def linesFollowCursor (s : State) : Prop :=
  (s.session = true → s.seq.op = .none ∨ s.seq.op = .encode → sessionLines s) ∧
  (s.session = true → s.seq.op = .powerOn ∧ s.seq.step = 0 → sessionLines s) ∧
  (s.session = true → s.seq.op = .powerOff ∧ s.seq.step ≤ 1 → sessionLines s) ∧
  (s.session = true → s.seq.op = .sendImage → sendImageLines s) ∧
  (s.seq.op = .powerOn → powerOnLines s)

/-- The position of a LAYER_DATA payload (R97 step 2 items 4 and 10). -/
def payloadPos (c : Cursor) : Bool := (c.op == .sendImage) && (c.step == 2) && ((c.item == 4) || (c.item == 10))

/-- A trace in which each wire command of POWER_ON, SEND_IMAGE and POWER_OFF goes out with CS = 0 and DC = 0, and each payload with
CS = 0 and DC = 1 (R93, R107, R108, R117). CLEANUP can begin inside the payload bracket and is not in this claim (log 19). -/
def writesBracketed (n : LineNumbers) (t : List Entry) : Prop :=
  ∀ pre e post, t = pre ++ e :: post → (∃ bytes, e.event = .busWrite bytes) → e.pos.op ≠ .cleanup →
    lineView n.cs pre = .output false ∧ lineView n.dc pre = .output (payloadPos e.pos)

/-- The invariant of the lines. -/
def linesInvariant (s : State) : Prop :=
  sessionInvariant s ∧ linesFollowCursor s ∧ writesBracketed s.params.lines s.trace

/-! ### The events the unit may issue -/

/-- The line of a line event. -/
def Event.line? : Event → Option Nat
  | .exportLine n => some n
  | .unexportLine n => some n
  | .setDir n _ => some n
  | .set n _ => some n
  | .get n => some n
  | .pixRead _ _ => none
  | .busOpen _ => none
  | .busConfig _ _ _ => none
  | .busWrite _ => none
  | .busClose => none
  | .delay _ => none

/-- An event the unit may issue at a cursor position: a line event on one of the five lines (R56); the bus opened at its one path and
configured in mode 0, 8 bits, at a rate that does not exceed 10 MHz (R53, R57, R91); a BusWrite that is one of the wire
commands or, in the payload bracket, a payload (R54, R68); a delay of R148. -/
def eventAllowed (p : Params) (e : Entry) : Prop :=
  (∀ n, e.event.line? = some n →
    n ∈ LineNumbers.five p.lines ∧ n ≠ p.lines.reserved ∧ n ≠ Config.reservedLine) ∧
  (∀ path, e.event = .busOpen path → path = p.busDevicePath) ∧
  (∀ mode bits hz, e.event = .busConfig mode bits hz →
    mode = 0 ∧ bits = 8 ∧ hz = p.busClockHz ∧ 1 ≤ hz ∧ hz ≤ Config.busClockMaxHz) ∧
  (∀ bytes, e.event = .busWrite bytes →
    ∃ i, decode (if payloadPos e.pos then .wirePayload else .wireCommand) bytes = .ok i) ∧
  (∀ ms, e.event = .delay ms → ms = 5 ∨ ms = 10 ∨ ms = 150)

/-- SESSION = 1, and every operation past its preconditions, has a valid panel geometry (R30, R95 step 0). -/
def panelInvariant (s : State) : Prop :=
  (s.session = true → geometryValid s.panelWidth.toNat s.panelHeight.toNat = true) ∧
  (s.seq.op = .powerOn → 1 ≤ s.seq.step → geometryValid s.panelWidth.toNat s.panelHeight.toNat = true) ∧
  (s.seq.op = .sendImage → pastSessionTest s → s.session = true) ∧
  (s.seq.op ≠ .none → s.busy = true)

/-- The invariant of the trace. -/
def traceInvariant (s : State) : Prop := panelInvariant s ∧ ∀ e ∈ s.trace, eventAllowed s.params e

/-! ### The handles, as the trace accounts for them (R24, R56, R57) -/

/-- One event's effect on whether line `n` is held: a successful Export takes it, a successful Unexport gives it back (R56). -/
def heldAfter (n : Nat) (held : Bool) (e : Entry) : Bool :=
  if e.outcome = .fail then held
  else
    match e.event with
    | .exportLine m => if m = n then true else held
    | .unexportLine m => if m = n then false else held
    | .setDir _ _ => held
    | .set _ _ => held
    | .pixRead _ _ => held
    | .get _ => held
    | .busOpen _ => held
    | .busConfig _ _ _ => held
    | .busWrite _ => held
    | .busClose => held
    | .delay _ => held

/-- One event's effect on whether the bus is open (R57). -/
def openAfter (isOpen : Bool) (e : Entry) : Bool :=
  if e.outcome = .fail then isOpen
  else
    match e.event with
    | .busOpen _ => true
    | .busClose => false
    | .exportLine _ => isOpen
    | .unexportLine _ => isOpen
    | .setDir _ _ => isOpen
    | .set _ _ => isOpen
    | .pixRead _ _ => isOpen
    | .get _ => isOpen
    | .busConfig _ _ _ => isOpen
    | .busWrite _ => isOpen
    | .delay _ => isOpen

/-- CLEANUP acts only on what is held when its item tests it: each of its line events is on a line that the trace before it shows as
held, and its DEEP_SLEEP and its BusClose find the bus open (R104). -/
def cleanupOnHeld (t : List Entry) : Prop :=
  ∀ pre e post, t = pre ++ e :: post → e.pos.op = .cleanup →
    (∀ n, e.event.line? = some n → pre.foldl (heldAfter n) false = true) ∧
    (e.event = .busClose ∨ (∃ bytes, e.event = .busWrite bytes) → pre.foldl openAfter false = true)

/-- EXPORTED and BUS_OPEN are what the trace accounts for: a bit is 1 exactly between a successful Export and a successful Unexport
of its line; and CLEANUP acts only on what is held. -/
def handlesInvariant (s : State) : Prop :=
  (∀ l : Line, s.exported.get l = s.trace.foldl (heldAfter (s.lineNumber l)) false) ∧
  s.busOpen = s.trace.foldl openAfter false ∧ cleanupOnHeld s.trace

/-! ### What a shutdown leaves on record (R101, R104) -/

/-- The position of the busy wait of POWER_OFF or CLEANUP (R101, R104 step 1 item 1). -/
def shutdownWait (op : Op) : Cursor := { op := op, step := 1, item := 1 }

/-- A failed event of a shutdown that is noted, or sets CLEANUP_ERR: any but the best-effort one of step 4 (R102, R103). -/
def notedFail (e : Entry) : Bool := decide (e.outcome = .fail) && decide (e.pos.step ≠ 4)

/-- The busy wait of a shutdown timed out: the last of its polls succeeded and did not read `target` (R94). -/
def waitTimedOut (op : Op) (target : Bool) (es : List Entry) : Bool :=
  match (es.filter (fun e => e.pos = shutdownWait op)).getLast? with
  | some e => decide (e.outcome = .okLevel (!target))
  | none => false

/-- The error that POWER_OFF's events leave in ERROR: the first failure noted, or none. A wait that times out comes before every
noted failure, because it follows a DEEP_SLEEP write that succeeded (R101, R103). -/
def notedError (target : Bool) (es : List Entry) : ErrorReg :=
  if waitTimedOut .powerOff target es then { code := .hardwareTimeout, phase := .shutdown, step := 1, item := 1 }
  else
    match es.find? notedFail with
    | some e =>
      { code := .hardwareIo, phase := .shutdown, step := BitVec.ofNat 8 e.pos.step, item := BitVec.ofNat 8 e.pos.item }
    | none => { code := .none, phase := .none, step := 0, item := 0 }

/-- CLEANUP_ERR as CLEANUP's events leave it (R104). -/
def cleanupFailed (target : Bool) (es : List Entry) : Bool := es.any notedFail || waitTimedOut .cleanup target es

/-- An event that is issued only where something is held. -/
def whenHeld (held : Bool) (e : Event) : List Event := if held then [e] else []

/-- The events of CLEANUP apart from its busy wait, by the lines held and the bus open when it starts (R104). -/
def cleanupEvents (n : LineNumbers) (held : Line → Bool) (isOpen : Bool) : List Event :=
  whenHeld isOpen (.busWrite [0x02, 0x02]) ++ whenHeld (held .reset) (.setDir n.reset .input) ++
  whenHeld (held .cs) (.set n.cs false) ++ whenHeld (held .dc) (.set n.dc false) ++
  whenHeld (held .power) (.set n.power false) ++ whenHeld (held .busy) (.set n.busy false) ++ [.delay 150] ++
  whenHeld (held .power) (.unexportLine n.power) ++ whenHeld (held .reset) (.unexportLine n.reset) ++
  whenHeld (held .cs) (.unexportLine n.cs) ++ whenHeld (held .dc) (.unexportLine n.dc) ++
  whenHeld (held .busy) (.unexportLine n.busy) ++ whenHeld isOpen .busClose

/-- The events of a list of entries, apart from those of the busy wait of POWER_OFF or CLEANUP. -/
def outsideWait (op : Op) (es : List Entry) : List Event := (es.filter (fun e => e.pos ≠ shutdownWait op)).map Entry.event

/-! ### Terms the statements use -/

/-- The cursor between operations (R18). -/
def noOperation : Cursor := { op := .none, step := 0, item := 0 }

/-- ERROR with nothing recorded (R120). -/
def noError : ErrorReg := { code := .none, phase := .none, step := 0, item := 0 }

/-- A command was accepted and has ended, and nothing else has happened: what every accepted command does (R47, R48). -/
def State.completed (s : State) : State :=
  { s with
    error := noError, hazard := false, cleanupErr := false, busy := false, seq := noOperation, wait := .idle }

/-- The milliseconds a list of events took beyond their minimums (R128). -/
def excessMs (as : List Answer) : Nat := (as.map Answer.ms).sum

/-- All five lines exported. -/
def allExported : Exported := { power := true, reset := true, cs := true, dc := true, busy := true }

/-- No line exported. -/
def noneExported : Exported := { power := false, reset := false, cs := false, dc := false, busy := false }

/-- The events of `t` that `s` had not issued, oldest first: what stands in the trace after the first `s.trace.length` entries. -/
def newEntries (s t : State) : List Entry := t.trace.drop s.trace.length

/-- ceil(T/5) (R94). -/
def pollBound (t : Nat) : Nat := (t + 4) / 5

/-- A poll of the busy line. -/
def isGet (e : Entry) : Bool :=
  match e.event with
  | .get _ => true
  | .pixRead _ _ => false
  | .exportLine _ => false
  | .setDir _ _ => false
  | .set _ _ => false
  | .unexportLine _ => false
  | .busOpen _ => false
  | .busConfig _ _ _ => false
  | .busWrite _ => false
  | .busClose => false
  | .delay _ => false

/-- A PixRead. -/
def isPixRead (e : Entry) : Bool :=
  match e.event with
  | .pixRead _ _ => true
  | .get _ => false
  | .exportLine _ => false
  | .setDir _ _ => false
  | .set _ _ => false
  | .unexportLine _ => false
  | .busOpen _ => false
  | .busConfig _ _ _ => false
  | .busWrite _ => false
  | .busClose => false
  | .delay _ => false

/-- What no move of the sequencer changes, as one value: the parameters, the registers the host writes, the pixel source's size,
and what the host's reads were answered (R20, R46, R49). -/
structure HostSide where
  params : Params
  encWidth : Word
  encHeight : Word
  encColor : Bool
  panelWidth : Word
  panelHeight : Word
  tempCode : Byte
  busyTimeout : Word
  srcWidth : Nat
  srcHeight : Nat
  replies : List Reply
  deriving DecidableEq, Repr

/-- The host's side of a state. -/
def State.hostSide (s : State) : HostSide :=
  { params := s.params, encWidth := s.encWidth, encHeight := s.encHeight, encColor := s.encColor,
    panelWidth := s.panelWidth, panelHeight := s.panelHeight, tempCode := s.tempCode, busyTimeout := s.busyTimeout,
    srcWidth := s.srcWidth, srcHeight := s.srcHeight, replies := s.replies }

/-- What ENCODE alone writes, as one value: the frame, the layers, ERR_X and ERR_Y, and ENCODE's cursor (R26, R29, R34). -/
structure FrameSide where
  frameValid : Bool
  frameWidth : Word
  frameHeight : Word
  frameColor : Bool
  primary : List Host.Cell
  secondary : List Host.Cell
  forgotten : List Nat
  errX : Word
  errY : Word
  pixel : PixelCursor
  deriving DecidableEq, Repr

/-- The frame's side of a state. -/
def State.frameSide (s : State) : FrameSide :=
  { frameValid := s.frameValid, frameWidth := s.frameWidth, frameHeight := s.frameHeight, frameColor := s.frameColor,
    primary := s.primary, secondary := s.secondary, forgotten := s.forgotten, errX := s.errX, errY := s.errY,
    pixel := s.pixel }

/-- What ENCODE does not touch, as one value: the session, the handles, LAST_REFRESH (R88). -/
structure SessionSide where
  session : Bool
  exported : Exported
  busOpen : Bool
  lastRefresh : BitVec 64
  lastRefreshValid : Bool
  deriving DecidableEq, Repr

/-- The session's side of a state. -/
def State.sessionSide (s : State) : SessionSide :=
  { session := s.session, exported := s.exported, busOpen := s.busOpen, lastRefresh := s.lastRefresh,
    lastRefreshValid := s.lastRefreshValid }

end Sys2Proof.Machine
end

