-- ==== Sys2Proof/Certificates/Slice0/Obligations.lean ====
section
/-! DEFINITION. The statements about the model, for the provers. Each docstring names the rules of spec/ it rests on. A statement
about what an operation answers takes `s.inputs = []` where it speaks of the operation's end: no access of the host lands before
the operation has ended (log 3). -/

open Sys2Proof Sys2Proof.Machine

/-! ### Encoding -/

/-- 30_encoding.md R66, R68, R69, R71: decoding the bytes an instruction is written as gives the instruction back, whatever its
operands. -/
def Obligations.DecodeOfEncodeIsIdentity : Prop :=
  ∀ i : Instr, i.wellFormed = true → decode i.channel (Sys2Proof.encode i) = .ok i

/-- The converse: what decodes is the encoding of the one instruction it decodes to, and that instruction is well formed. -/
def Obligations.DecodedBytesAreTheEncoding : Prop :=
  ∀ (c : Channel) (bytes : List Byte) (i : Instr), decode c bytes = .ok i →
    i.wellFormed = true ∧ i.channel = c ∧ Sys2Proof.encode i = bytes

/-- Words written out from the tables of R66 and R68, with their bits as spec/opcode_table.json numbers them. -/
def Obligations.TableWordsDecode : Prop :=
  decodeTableWord 32 0x00000001 = some .encode ∧ decodeTableWord 32 0x00000010 = some .powerOn ∧
  decodeTableWord 32 0x00000011 = some .sendImage ∧ decodeTableWord 32 0x00000012 = some .powerOff ∧
  decodeTableWord 16 0x000E = some .softReset ∧ decodeTableWord 16 0xE519 = some (.tempComp 0x19) ∧
  decodeTableWord 16 0xE002 = some .activateA ∧ decodeTableWord 16 0xCF02 = some .activateB ∧
  decodeTableWord 24 0x000F89 = some .panelSettings ∧ decodeTableWord 8 0x10 = some .layerSelPrimary

/-! ### The step -/

/-- Where what the step fetches decodes to an instruction, the step runs that instruction: a CMD write that lands runs its host
command with the access taken off the queue; a move at an item that writes the bus runs its wire command with the move counted
towards the next input (log 3). -/
def Obligations.StepRunsTheDecodedInstruction : Prop :=
  (∀ (s : State) (v : Word) (k : Nat) (rest : List Pending) (i : Instr),
    paramsOk s.params = true → s.inputs = { after := k, input := .write 0 4 v } :: rest → (k = 0 ∨ s.busy = false) →
    decode .hostCommand (bytesOfWord v) = .ok i → step s = exec i { s with inputs := rest }) ∧
  (∀ (s : State) (w : WireItem) (i : Instr),
    paramsOk s.params = true → s.inputDue = false → s.busy = true → s.wireItemHere = some w →
    decode w.channel (s.wireBytes w) = .ok i → step s = exec i s.tick)

/-- A machine whose parameter set breaks one of R9's constraints, or gives line 25 a role (93_implementation_defined.md section 1),
takes no step. BUSY_ASSERTED_LEVEL is a Bool, so R9's constraint on
it cannot be broken (log 8). -/
def Obligations.BadParametersAreRefused : Prop :=
  ∀ s : State,
    (Config.busClockMaxHz < s.params.busClockHz ∨ s.params.busClockHz = 0 ∨ s.params.busWordBits ≠ 8 ∨
      s.params.busMode ≠ 0 ∨
      ¬ [s.params.lines.power, s.params.lines.cs, s.params.lines.dc, s.params.lines.busy, s.params.lines.reset].Nodup ∨
      25 ∈ [s.params.lines.power, s.params.lines.cs, s.params.lines.dc, s.params.lines.busy, s.params.lines.reset] ∨
      s.params.lines.reserved = s.params.lines.power ∨ s.params.lines.reserved = s.params.lines.cs ∨
      s.params.lines.reserved = s.params.lines.dc ∨ s.params.lines.reserved = s.params.lines.busy ∨
      s.params.lines.reserved = s.params.lines.reset) →
    step s = .refused .parametersRefused

/-- The parameters never change (R8, R144). -/
def Obligations.StepKeepsParameters : Prop :=
  ∀ s t : State, step s = .next t → t.params = s.params

/-! ### The host port -/

/-- R42: the admitted accesses are those of 4 bytes at a 4-aligned offset and those of 1 byte in a window or its tail; every
other access is refused, and every admitted one has a step. -/
def Obligations.HostAccessesAdmittedExactly : Prop :=
  ∀ (s : State) (k a n : Nat) (v : Word) (rest : List Pending) (i : Input),
    paramsOk s.params = true → s.inputs = { after := k, input := i } :: rest → (k = 0 ∨ s.busy = false) →
    (i = .read a n ∨ i = .write a n v) →
    (((n = 4 ∧ a % 4 = 0 ∧ a ≤ 0x2FFFC) ∨ (n = 1 ∧ 0x10000 ≤ a ∧ a ≤ 0x2FFFF)) → ∃ t, step s = .next t) ∧
    (¬ ((n = 4 ∧ a % 4 = 0 ∧ a ≤ 0x2FFFC) ∨ (n = 1 ∧ 0x10000 ≤ a ∧ a ≤ 0x2FFFF)) →
      step s = .refused .accessNotAdmitted)

/-- R49: a host read changes nothing of the unit, and a register read returns the register's current value, BUSY or not (R20 to R33);
a reserved offset and CMD read 0. That the halves of LAST_REFRESH read as they stand while BUSY = 1 is the model's choice, where
93_implementation_defined.md section 2 leaves the pair at any value (log 24). -/
def Obligations.HostReadsHaveNoSideEffects : Prop :=
  ∀ (s : State) (k a n : Nat) (rest : List Pending),
    paramsOk s.params = true → s.inputs = { after := k, input := .read a n } :: rest → (k = 0 ∨ s.busy = false) →
    ((n = 4 ∧ a % 4 = 0 ∧ a ≤ 0x2FFFC) ∨ (n = 1 ∧ 0x10000 ≤ a ∧ a ≤ 0x2FFFF)) →
    ∃ v : Word, step s = .next { s with inputs := rest, replies := s.replies ++ [{ a := a, n := n, value := v }] } ∧
      (a = 0x000 → v = 0) ∧ (a = 0x004 → v = s.statusWord) ∧ (a = 0x008 → v = s.error.word) ∧
      (a = 0x00C → v = s.errX) ∧ (a = 0x010 → v = s.errY) ∧ (a = 0x014 → v = s.encWidth) ∧
      (a = 0x018 → v = s.encHeight) ∧ (a = 0x01C → v = if s.encColor then 1 else 0) ∧
      (a = 0x020 → v = s.frameWidth) ∧ (a = 0x024 → v = s.frameHeight) ∧
      (a = 0x028 → v = if s.frameColor then 1 else 0) ∧ (a = 0x02C → v = s.panelWidth) ∧
      (a = 0x030 → v = s.panelHeight) ∧ (a = 0x034 → v = s.tempCode.zeroExtend 32) ∧ (a = 0x038 → v = s.busyTimeout) ∧
      (a = 0x03C → v = s.lastRefresh.truncate 32) ∧ (a = 0x040 → v = (s.lastRefresh >>> 32).truncate 32) ∧
      (0x044 ≤ a → a ≤ 0xFFFF → v = 0)

/-- R43, R44: while BUSY = 0 a window read returns the layer's bytes, little-endian. R41: a read of a reserved tail returns 0, of 1
byte or of 4, whether or not the unit is busy. -/
def Obligations.WindowReadsReturnLayerBytes : Prop :=
  ∀ (s : State) (k i : Nat) (l : Layer) (rest : List Pending) (base : Nat),
    paramsOk s.params = true → (k = 0 ∨ s.busy = false) → base = (if l = .primary then 0x10000 else 0x20000) →
    (s.busy = false → i < 15000 → s.inputs = { after := k, input := .read (base + i) 1 } :: rest →
      step s = .next { s with
        inputs := rest
        replies := s.replies ++ [{ a := base + i, n := 1, value := (s.layerByte l i).zeroExtend 32 }] }) ∧
    (s.busy = false → i < 15000 → i % 4 = 0 → s.inputs = { after := k, input := .read (base + i) 4 } :: rest →
      ∃ v : Word, step s = .next { s with
          inputs := rest
          replies := s.replies ++ [{ a := base + i, n := 4, value := v }] } ∧
        v.extractLsb' 0 8 = s.layerByte l i ∧ v.extractLsb' 8 8 = s.layerByte l (i + 1) ∧
        v.extractLsb' 16 8 = s.layerByte l (i + 2) ∧ v.extractLsb' 24 8 = s.layerByte l (i + 3)) ∧
    (15000 ≤ i → i < 0x10000 → ∀ n, (n = 1 ∨ (n = 4 ∧ i % 4 = 0)) →
      s.inputs = { after := k, input := .read (base + i) n } :: rest →
      step s = .next { s with inputs := rest, replies := s.replies ++ [{ a := base + i, n := n, value := 0 }] })


/-- R46: a write of CMD, ENC_* or BUSY_TIMEOUT_MS while BUSY = 1, and a write of PANEL_* or TEMP_CODE while BUSY = 1 or SESSION = 1,
sets HAZARD and changes nothing else. -/
def Obligations.DroppedWritesOnlySetHazard : Prop :=
  ∀ (s : State) (k a : Nat) (v : Word) (rest : List Pending),
    paramsOk s.params = true → s.inputs = { after := k, input := .write a 4 v } :: rest → (k = 0 ∨ s.busy = false) →
    ((a ∈ [0x000, 0x014, 0x018, 0x01C, 0x038] ∧ s.busy = true) ∨
      (a ∈ [0x02C, 0x030, 0x034] ∧ (s.busy = true ∨ s.session = true))) →
    step s = .next { s with inputs := rest, hazard := true }

/-- R45: a write of an RW register whose write condition holds stores the value, reserved bits dropped; a write of any other offset but
CMD, a window's included, has no effect and sets no flag. -/
def Obligations.AdmittedWritesStore : Prop :=
  ∀ (s : State) (k a n : Nat) (v : Word) (rest : List Pending),
    paramsOk s.params = true → s.inputs = { after := k, input := .write a n v } :: rest → (k = 0 ∨ s.busy = false) →
    ((n = 4 ∧ a % 4 = 0 ∧ a ≤ 0x2FFFC) ∨ (n = 1 ∧ 0x10000 ≤ a ∧ a ≤ 0x2FFFF)) →
    (s.busy = false → a = 0x014 → step s = .next { s with inputs := rest, encWidth := v }) ∧
    (s.busy = false → a = 0x018 → step s = .next { s with inputs := rest, encHeight := v }) ∧
    (s.busy = false → a = 0x01C → step s = .next { s with inputs := rest, encColor := v.getLsbD 0 }) ∧
    (s.busy = false → a = 0x038 → step s = .next { s with inputs := rest, busyTimeout := v }) ∧
    (s.busy = false → s.session = false → a = 0x02C → step s = .next { s with inputs := rest, panelWidth := v }) ∧
    (s.busy = false → s.session = false → a = 0x030 → step s = .next { s with inputs := rest, panelHeight := v }) ∧
    (s.busy = false → s.session = false → a = 0x034 →
      step s = .next { s with inputs := rest, tempCode := v.truncate 8 }) ∧
    (a ∉ [0x000, 0x014, 0x018, 0x01C, 0x02C, 0x030, 0x034, 0x038] → step s = .next { s with inputs := rest })

/-- R67: a word of CMD that R66 does not list is accepted while BUSY = 0 and fails at once with ILLEGAL_COMMAND (CODE 9, PHASE COMMAND,
STEP 0, ITEM 0), with no other effect than an acceptance has. That it is accepted and fails in one step, with no BUSY = 1 between,
is the model's choice (log 22). -/
def Obligations.IllegalCommandFailsAtOnce : Prop :=
  ∀ (s : State) (k : Nat) (v : Word) (rest : List Pending),
    paramsOk s.params = true → s.busy = false → s.inputs = { after := k, input := .write 0 4 v } :: rest →
    v ≠ 0x01 → v ≠ 0x10 → v ≠ 0x11 → v ≠ 0x12 →
    step s = .next { s.completed with
      inputs := rest, error := { code := .illegalCommand, phase := .command, step := 0, item := 0 } } ∧
    ({ code := .illegalCommand, phase := .command, step := 0, item := 0 } : ErrorReg).word = 0x00000509

/-- R46, R138: a host command issued while BUSY = 1 starts nothing; it sets HAZARD. -/
def Obligations.CommandsWhileBusyAreDropped : Prop :=
  ∀ (s : State) (i : Instr), i.channel = .hostCommand → s.busy = true → exec i s = .next { s with hazard := true }

/-- R22: the bits of STATUS, each at its place; bit 7 and bits 31:13 read 0. -/
def Obligations.StatusBitsAtTheirPlaces : Prop :=
  ∀ s : State,
    s.statusWord.getLsbD 0 = s.busy ∧ s.statusWord.getLsbD 1 = s.session ∧ s.statusWord.getLsbD 2 = s.frameValid ∧
    s.statusWord.getLsbD 3 = s.hazard ∧ s.statusWord.getLsbD 4 = s.lastRefreshValid ∧
    s.statusWord.getLsbD 5 = s.cleanupErr ∧ s.statusWord.getLsbD 6 = s.busOpen ∧ s.statusWord.getLsbD 7 = false ∧
    s.statusWord.getLsbD 8 = s.exported.power ∧ s.statusWord.getLsbD 9 = s.exported.reset ∧
    s.statusWord.getLsbD 10 = s.exported.cs ∧ s.statusWord.getLsbD 11 = s.exported.dc ∧
    s.statusWord.getLsbD 12 = s.exported.busy ∧ (∀ i, 13 ≤ i → s.statusWord.getLsbD i = false)

/-! ### Reset and errors -/

/-- R135: what the reset leaves. TEMP_CODE and BUSY_TIMEOUT_MS take the parameters; no byte of a layer is listed: each holds any value.
ENCODE's cursor and the pixel source's size at reset are the model's choice (log 18) and are not in this statement. -/
def Obligations.ResetStateAsListed : Prop :=
  State.reset.statusWord = 0 ∧ State.reset.error.word = 0 ∧ State.reset.errX = 0 ∧ State.reset.errY = 0 ∧
  State.reset.encWidth = 0 ∧ State.reset.encHeight = 0 ∧ State.reset.encColor = false ∧
  State.reset.frameWidth = 0 ∧ State.reset.frameHeight = 0 ∧ State.reset.frameColor = false ∧
  State.reset.panelWidth = 0 ∧ State.reset.panelHeight = 0 ∧
  State.reset.tempCode = State.reset.params.tempCodeReset ∧
  State.reset.busyTimeout = State.reset.params.busyTimeoutReset ∧ State.reset.lastRefresh = 0 ∧
  (∀ i, memoryGet State.reset.primary i = none ∧ memoryGet State.reset.secondary i = none) ∧
  State.reset.seq = noOperation ∧ State.reset.trace = []

/-- R136: a unit reset is admitted only from a quiescent state, and refused in any other; it gives the values of R135 and issues no
event. That Now() stays (R135 leaves it unspecified) is the model's choice (log 7), and so is that the environment's answers and the
inputs to come stay and the trace begins again (log 17). -/
def Obligations.UnitResetOnlyFromQuiescent : Prop :=
  ∀ (s : State) (k : Nat) (rest : List Pending),
    paramsOk s.params = true → s.inputs = { after := k, input := .unitReset } :: rest → (k = 0 ∨ s.busy = false) →
    ((s.busy = false ∧ s.session = false ∧ s.exported = noneExported ∧ s.busOpen = false) →
      ∃ t, step s = .next t ∧ t.statusWord = 0 ∧ t.error.word = 0 ∧ t.errX = 0 ∧ t.errY = 0 ∧ t.encWidth = 0 ∧
        t.encHeight = 0 ∧ t.encColor = false ∧ t.frameWidth = 0 ∧ t.frameHeight = 0 ∧ t.frameColor = false ∧
        t.panelWidth = 0 ∧ t.panelHeight = 0 ∧ t.tempCode = s.params.tempCodeReset ∧
        t.busyTimeout = s.params.busyTimeoutReset ∧ t.lastRefresh = 0 ∧ t.seq = noOperation ∧
        (∀ i, memoryGet t.primary i = none ∧ memoryGet t.secondary i = none) ∧
        t.params = s.params ∧ t.now = s.now ∧ t.trace = [] ∧ t.env = s.env ∧ t.inputs = rest) ∧
    (¬ (s.busy = false ∧ s.session = false ∧ s.exported = noneExported ∧ s.busOpen = false) →
      step s = .refused .resetNotQuiescent)

/-- R122: `raise E(phase, step, item)` writes ERROR as {0000, item, step, phase, E}; HARDWARE_IO_ERROR and HARDWARE_TIMEOUT of the INIT
and TRANSFER phases run CLEANUP from its first item; every other error ends the operation; nothing else changes. -/
def Obligations.RaiseRecordsAndDiverts : Prop :=
  ∀ (s : State) (e : ErrorCode) (p : Phase) (step item : Nat), step < 256 → item < 256 →
    (s.raise e p step item).error.word =
      BitVec.ofNat 32 (item * 2 ^ 20 + step * 2 ^ 12 + p.bits.toNat * 2 ^ 8 + e.bits.toNat) ∧
    (((e = .hardwareIo ∨ e = .hardwareTimeout) ∧ (p = .init ∨ p = .transfer)) →
      s.raise e p step item = { s with
        error := (s.raise e p step item).error, seq := { op := .cleanup, step := 1, item := 0 }, wait := .idle }) ∧
    (¬ ((e = .hardwareIo ∨ e = .hardwareTimeout) ∧ (p = .init ∨ p = .transfer)) →
      s.raise e p step item = { s with
        error := (s.raise e p step item).error, seq := noOperation, busy := false, wait := .idle })

/-- R54, R128: an event takes the environment's next answer, stands at the end of the trace with Now() when it began, and lasts at
least d milliseconds if it is Delay(d); nothing else changes. That the answer is the head of `env`, that it holds the time beyond the
minimum, and that a brightness is taken modulo 2^B are the model's choices (log 5). -/
def Obligations.EventEntersTrace : Prop :=
  ∀ (s : State) (e : Event) (a : Answer) (rest : List Answer), s.env = a :: rest →
    ∃ (o : EventOutcome) (d : Nat),
      s.emit e = { s with
        env := rest, now := s.now + d + a.ms
        trace := s.trace ++ [{ event := e, outcome := o, time := s.now, pos := s.seq }] } ∧
      ((∃ ms, e = .delay ms ∧ d = ms ∧ o = .ok) ∨
        ((∀ ms, e ≠ .delay ms) ∧ d = 0 ∧ (o = .fail ↔ a.ok = false) ∧
          (∀ n, e = .get n → a.ok = true → o = .okLevel a.level) ∧
          (∀ x y, e = .pixRead x y → a.ok = true → o = .okBright (a.bright % 2 ^ s.params.brightnessBits))))

/-! ### ENCODE -/

/-- R79, R80: the geometry is checked before the dimensions, and a failed check issues no event; ERROR is 0x1105 or 0x2101
(95_test_vectors.md V-E7, V-E15) and FRAME_VALID is 0; no byte of a layer is written. That
the layers stay is the model's reading of R86 and R81 (log 13). -/
def Obligations.EncodeChecksGeometryThenDimensions : Prop :=
  ∀ s : State, s.busy = false → s.inputs = [] →
    (geometryValid s.encWidth.toNat s.encHeight.toNat = false →
      exec .encode s = .next { s.completed with
        frameValid := false, error := { code := .geometryInvalid, phase := .encode, step := 1, item := 0 } }) ∧
    (geometryValid s.encWidth.toNat s.encHeight.toNat = true →
      (s.srcWidth ≠ s.encWidth.toNat ∨ s.srcHeight ≠ s.encHeight.toNat) →
      exec .encode s = .next { s.completed with
        frameValid := false, error := { code := .dimensionMismatch, phase := .encode, step := 2, item := 0 } })

/-- R78: the geometries ENCODE and POWER_ON accept. -/
def Obligations.GeometryValidExactly : Prop :=
  ∀ w h : Nat, geometryValid w h = true ↔ (1 ≤ w ∧ 1 ≤ h ∧ w % 8 = 0 ∧ w * h / 8 ≤ 15000)

/-- R51, R72, R76, R81, R84, R85: when every PixRead succeeds, with brightness img(x, y) at its coordinate, ENCODE ends with a frame
in which bit `x mod 8` of PRIMARY byte `y*(W/8) + x div 8` is 1 exactly when img(x, y) < 2^(B-1), every SECONDARY byte below L is 0,
every byte from L on is as before, the frame's registers hold the geometry and the colour, and nothing else of the unit has changed.
That no time passes but the excesses of the reads is the model's choice (log 21). -/
def Obligations.EncodePacksTheRaster : Prop :=
  ∀ (s : State) (img : Nat → Nat → Nat) (as rest : List Answer),
    s.busy = false → s.inputs = [] → geometryValid s.encWidth.toNat s.encHeight.toNat = true →
    s.srcWidth = s.encWidth.toNat → s.srcHeight = s.encHeight.toNat → s.env = as ++ rest →
    as.length = s.encWidth.toNat * s.encHeight.toNat →
    (∀ x y, x < s.encWidth.toNat → y < s.encHeight.toNat → ∃ a, as[y * s.encWidth.toNat + x]? = some a ∧ a.ok = true ∧
      a.bright % 2 ^ s.params.brightnessBits = img x y) →
    ∃ (prim sec : List Host.Cell) (p : PixelCursor) (entries : List Entry),
      exec .encode s = .next { s.completed with
        frameValid := true, frameWidth := s.encWidth, frameHeight := s.encHeight, frameColor := s.encColor
        primary := prim, secondary := sec, pixel := p, env := rest, now := s.now + excessMs as
        trace := s.trace ++ entries } ∧
      (∀ x y, x < s.encWidth.toNat → y < s.encHeight.toNat →
        ∃ b : Byte, memoryGet prim (y * (s.encWidth.toNat / 8) + x / 8) = some b ∧
          b.getLsbD (x % 8) = decide (img x y < 2 ^ (s.params.brightnessBits - 1))) ∧
      (∀ i, i < s.encWidth.toNat * s.encHeight.toNat / 8 → memoryGet sec i = some 0) ∧
      (∀ i, s.encWidth.toNat * s.encHeight.toNat / 8 ≤ i →
        memoryGet prim i = memoryGet s.primary i ∧ memoryGet sec i = memoryGet s.secondary i) ∧
      (∀ e ∈ entries, isPixRead e = true)

/-- R82: a successful ENCODE reads every pixel exactly once, rows top to bottom and within a row left to right, and no other
coordinate. -/
def Obligations.EncodeReadsEachPixelOnceInOrder : Prop :=
  ∀ (s : State) (as rest : List Answer),
    s.busy = false → s.inputs = [] → geometryValid s.encWidth.toNat s.encHeight.toNat = true →
    s.srcWidth = s.encWidth.toNat → s.srcHeight = s.encHeight.toNat → s.env = as ++ rest →
    as.length = s.encWidth.toNat * s.encHeight.toNat → (∀ a ∈ as, a.ok = true) →
    ∃ t, exec .encode s = .next t ∧ t.frameValid = true ∧
      t.trace.map Entry.event = s.trace.map Entry.event ++
        (List.range (s.encWidth.toNat * s.encHeight.toNat)).map
          (fun k => Event.pixRead (k % s.encWidth.toNat) (k / s.encWidth.toNat))

/-- R81, R82, R86: the first PixRead that fails, at pixel k in reading order, stops ENCODE, after the reads of the pixels 0 to k in
that order and no others, with PIXEL_ACCESS_ERROR (ERROR 0x3102), its coordinate in ERR_X and ERR_Y, FRAME_VALID = 0, the bytes from
L on as before, and nothing else of the unit changed but the layers' bytes below L, which hold any value. -/
def Obligations.EncodeStopsAtFirstFailedRead : Prop :=
  ∀ (s : State) (as rest : List Answer) (a : Answer),
    s.busy = false → s.inputs = [] → geometryValid s.encWidth.toNat s.encHeight.toNat = true →
    s.srcWidth = s.encWidth.toNat → s.srcHeight = s.encHeight.toNat → s.env = as ++ a :: rest →
    as.length < s.encWidth.toNat * s.encHeight.toNat → (∀ b ∈ as, b.ok = true) → a.ok = false →
    ∃ (prim sec : List Host.Cell) (p : PixelCursor) (entries : List Entry),
      exec .encode s = .next { s.completed with
        frameValid := false
        error := { code := .pixelAccess, phase := .encode, step := 3, item := 0 }
        errX := BitVec.ofNat 32 (as.length % s.encWidth.toNat), errY := BitVec.ofNat 32 (as.length / s.encWidth.toNat)
        primary := prim, secondary := sec, pixel := p, env := rest
        forgotten := s.encWidth.toNat * s.encHeight.toNat / 8 :: s.forgotten
        now := s.now + excessMs as + a.ms, trace := s.trace ++ entries } ∧
      entries.map Entry.event =
        (List.range (as.length + 1)).map (fun j => Event.pixRead (j % s.encWidth.toNat) (j / s.encWidth.toNat)) ∧
      (∀ i, s.encWidth.toNat * s.encHeight.toNat / 8 ≤ i →
        memoryGet prim i = memoryGet s.primary i ∧ memoryGet sec i = memoryGet s.secondary i)

/-- R88: ENCODE may be issued in a session or out of one; it does not change SESSION, the line or bus handles or LAST_REFRESH,
issues no line or bus event, and does not read LAST_REFRESH; nor does it change the host's registers. Its frame, for every answer of
the environment. -/
def Obligations.EncodeLeavesTheSessionAlone : Prop :=
  ∀ s : State, ∃ t, exec .encode s = .next t ∧ t.sessionSide = s.sessionSide ∧ t.hostSide = s.hostSide ∧
    t.trace = s.trace ++ newEntries s t ∧ (∀ e ∈ newEntries s t, isPixRead e = true) ∧
    (∀ (v : BitVec 64) (b : Bool),
      exec .encode { s with lastRefresh := v, lastRefreshValid := b } =
        .next { t with lastRefresh := v, lastRefreshValid := b })

/-- R85: ENCODE, however it ends, leaves every layer byte from index L on as it was. -/
def Obligations.EncodeKeepsBytesBeyondTheFrame : Prop :=
  ∀ s t : State, exec .encode s = .next t →
    ∀ (l : Layer) (i : Nat), s.encWidth.toNat * s.encHeight.toNat / 8 ≤ i → t.layerByte l i = s.layerByte l i

/-! ### POWER_ON -/

/-- R95: from Idle with a valid geometry, when every event succeeds, POWER_ON issues exactly the 24 events of steps 1 to 6 and ends
with SESSION = 1, all lines exported and the bus open; nothing else of the unit has changed. Its five delays last 30 ms together;
the "35 ms" of R148 is not their sum (log 20). -/
def Obligations.PowerOnBringsTheSessionUp : Prop :=
  ∀ (s : State) (as rest : List Answer),
    s.busy = false → s.session = false → s.inputs = [] → geometryValid s.panelWidth.toNat s.panelHeight.toNat = true →
    s.env = as ++ rest → as.length = 24 → (∀ a ∈ as, a.ok = true) →
    ∃ entries : List Entry,
      exec .powerOn s = .next { s.completed with
        session := true, exported := allExported, busOpen := true, env := rest
        now := s.now + 30 + excessMs as, trace := s.trace ++ entries } ∧
      (∀ e ∈ entries, e.outcome = .ok) ∧
      entries.map Entry.event =
        [ .exportLine s.params.lines.power, .exportLine s.params.lines.reset, .exportLine s.params.lines.cs,
          .exportLine s.params.lines.dc, .exportLine s.params.lines.busy,
          .setDir s.params.lines.power .outHigh, .setDir s.params.lines.reset .outLow, .setDir s.params.lines.cs .outLow,
          .setDir s.params.lines.dc .outLow, .setDir s.params.lines.busy .input,
          .busOpen s.params.busDevicePath, .busConfig s.params.busMode s.params.busWordBits s.params.busClockHz,
          .delay 5, .set s.params.lines.reset true, .delay 5, .set s.params.lines.reset false, .delay 10,
          .set s.params.lines.reset true, .delay 5,
          .busWrite [0x00, 0x0E], .delay 5, .busWrite [0xE5, s.tempCode],
          .busWrite (if (s.panelWidth.toNat, s.panelHeight.toNat) ∈ s.params.activateAFor then [0xE0, 0x02]
            else [0xCF, 0x02]),
          .busWrite [0x00, 0x0F, 0x89] ]

/-- R70, R111, R112: with the default table, ACTIVATE_A is chosen for 400×300 and for no other geometry. -/
def Obligations.DefaultActivationChoice : Prop :=
  ∀ s : State, s.params.activateAFor = Config.params.activateAFor →
    s.wireBytes .activate = if s.panelWidth = 400 ∧ s.panelHeight = 300 then [0xE0, 0x02] else [0xCF, 0x02]

/-- R95 step 0, R96: POWER_ON in Active fails with INVALID_STATE, and in Idle with an invalid geometry with GEOMETRY_INVALID, with
no event; the session stays as it is. -/
def Obligations.PowerOnPreconditions : Prop :=
  ∀ s : State, s.busy = false → s.inputs = [] →
    (s.session = true →
      exec .powerOn s = .next { s.completed with
        error := { code := .invalidState, phase := .init, step := 0, item := 0 } }) ∧
    (s.session = false → geometryValid s.panelWidth.toNat s.panelHeight.toNat = false →
      exec .powerOn s = .next { s.completed with
        error := { code := .geometryInvalid, phase := .init, step := 0, item := 1 } })

/-- R92, R95, R104, R106, R122: whatever the environment answers, a POWER_ON from Idle with a valid geometry ends either in a whole
session with no error and no failed event, or in Idle with a HARDWARE_IO_ERROR of the INIT phase whose STEP and ITEM are those of
the first event that failed. All events after that one are CLEANUP's: apart from its busy wait they are exactly those of what was
held then, and CLEANUP_ERR says whether one of them failed or the wait timed out. -/
def Obligations.PowerOnIsAtomicOrFailed : Prop :=
  ∀ s : State, s.busy = false → s.session = false → s.inputs = [] →
    geometryValid s.panelWidth.toNat s.panelHeight.toNat = true →
    ∃ t, exec .powerOn s = .next t ∧ t.busy = false ∧
      ((t.session = true ∧ t.error = noError ∧ t.cleanupErr = false ∧ holdsAll t ∧
          (∀ e ∈ newEntries s t, e.outcome ≠ .fail)) ∨
        (t.session = false ∧ ∃ (pre post : List Entry) (f : Entry), newEntries s t = pre ++ f :: post ∧
          (∀ e ∈ pre, e.pos.op = .powerOn ∧ e.outcome ≠ .fail) ∧ f.pos.op = .powerOn ∧ f.outcome = .fail ∧
          (∀ e ∈ post, e.pos.op = .cleanup) ∧
          t.error = { code := .hardwareIo, phase := .init,
                      step := BitVec.ofNat 8 f.pos.step, item := BitVec.ofNat 8 f.pos.item } ∧
          t.cleanupErr = cleanupFailed s.params.busyAssertedLevel post ∧
          (paramsOk s.params = true →
            outsideWait .cleanup post = cleanupEvents s.params.lines
              (fun l => pre.foldl (heldAfter (s.lineNumber l)) (s.exported.get l)) (pre.foldl openAfter s.busOpen))))


/-! ### SEND_IMAGE -/

/-- R97, R100, R117: in Active, with a valid frame of the panel's geometry and the refresh guard open, when every event succeeds and
the busy line answers each wait at once, SEND_IMAGE issues exactly these 17 events and records the time of the REFRESH attempt;
nothing else of the unit has changed. -/
def Obligations.SendImageTransfersAndRefreshes : Prop :=
  ∀ (s : State) (as rest : List Answer) (a12 a14 a16 : Answer),
    s.busy = false → s.session = true → s.inputs = [] → s.frameValid = true →
    s.frameWidth = s.panelWidth → s.frameHeight = s.panelHeight →
    (s.lastRefreshValid = false ∨ 180000 ≤ (BitVec.ofNat 64 s.now - s.lastRefresh).toNat) →
    s.env = as ++ rest → as.length = 17 → (∀ a ∈ as, a.ok = true) →
    as[12]? = some a12 → as[14]? = some a14 → as[16]? = some a16 →
    a12.level = s.params.busyAssertedLevel → a14.level = !s.params.busyAssertedLevel →
    a16.level = s.params.busyAssertedLevel →
    ∃ entries : List Entry,
      exec .sendImage s = .next { s.completed with
        lastRefresh := BitVec.ofNat 64 (s.now + excessMs (as.take 15)), lastRefreshValid := true, env := rest
        now := s.now + excessMs as, trace := s.trace ++ entries } ∧
      (∀ e ∈ entries, e.outcome ≠ .fail) ∧
      entries.map Entry.event =
        [ .busWrite [0x10], .set s.params.lines.cs true, .set s.params.lines.dc true, .set s.params.lines.cs false,
          .busWrite ((List.range (s.panelWidth.toNat * s.panelHeight.toNat / 8)).map (s.layerByte .primary)),
          .set s.params.lines.dc false,
          .busWrite [0x13], .set s.params.lines.cs true, .set s.params.lines.dc true, .set s.params.lines.cs false,
          .busWrite ((List.range (s.panelWidth.toNat * s.panelHeight.toNat / 8)).map (s.layerByte .secondary)),
          .set s.params.lines.dc false,
          .get s.params.lines.busy, .busWrite [0x04, 0x04], .get s.params.lines.busy, .busWrite [0x12, 0x12],
          .get s.params.lines.busy ]

/-- R97 step 1, R98: SEND_IMAGE's preconditions in their order, INVALID_STATE, NO_FRAME, DIMENSION_MISMATCH, REFRESH_TOO_SOON; each
ends the command with no event and leaves the session as it is. -/
def Obligations.SendImagePreconditionsInOrder : Prop :=
  ∀ s : State, s.busy = false → s.inputs = [] →
    (s.session = false →
      exec .sendImage s = .next { s.completed with
        error := { code := .invalidState, phase := .transfer, step := 1, item := 0 } }) ∧
    (s.session = true → s.frameValid = false →
      exec .sendImage s = .next { s.completed with
        error := { code := .noFrame, phase := .transfer, step := 1, item := 1 } }) ∧
    (s.session = true → s.frameValid = true → (s.frameWidth ≠ s.panelWidth ∨ s.frameHeight ≠ s.panelHeight) →
      exec .sendImage s = .next { s.completed with
        error := { code := .dimensionMismatch, phase := .transfer, step := 1, item := 2 } }) ∧
    (s.session = true → s.frameValid = true → s.frameWidth = s.panelWidth → s.frameHeight = s.panelHeight →
      s.lastRefreshValid = true → (BitVec.ofNat 64 s.now - s.lastRefresh).toNat < 180000 →
      exec .sendImage s = .next { s.completed with
        error := { code := .refreshTooSoon, phase := .transfer, step := 1, item := 3 } })

/-- R92, R97, R98, R104, R106, R122: whatever the environment answers, a SEND_IMAGE past its preconditions ends either in Active
with no error and no failed event, or in Idle with a hardware error of the TRANSFER phase. STEP and ITEM of the error are those of
the last event before CLEANUP: one that failed (HARDWARE_IO_ERROR), or the poll at which a busy wait timed out (HARDWARE_TIMEOUT).
All events after it are CLEANUP's, exactly those of what is held apart from its busy wait. LAST_REFRESH is the time of this
operation's REFRESH write where it was attempted, as it was when it succeeded, and is otherwise unchanged. -/
def Obligations.SendImageSucceedsOrEndsIdle : Prop :=
  ∀ s : State, s.busy = false → s.session = true → s.inputs = [] → s.frameValid = true →
    s.frameWidth = s.panelWidth → s.frameHeight = s.panelHeight →
    (s.lastRefreshValid = false ∨ 180000 ≤ (BitVec.ofNat 64 s.now - s.lastRefresh).toNat) →
    ∃ t, exec .sendImage s = .next t ∧ t.busy = false ∧
      (∀ e ∈ newEntries s t, e.pos = refreshPos → t.lastRefresh = BitVec.ofNat 64 e.time ∧ t.lastRefreshValid = true) ∧
      ((∀ e ∈ newEntries s t, e.pos ≠ refreshPos) →
        t.lastRefresh = s.lastRefresh ∧ t.lastRefreshValid = s.lastRefreshValid) ∧
      ((t.session = true ∧ t.error = noError ∧ t.cleanupErr = false ∧ (∀ e ∈ newEntries s t, e.outcome ≠ .fail) ∧
          ∃ e ∈ newEntries s t, e.pos = refreshPos ∧ e.event = .busWrite [0x12, 0x12]) ∨
        (t.session = false ∧ ∃ (pre post : List Entry) (f : Entry), newEntries s t = pre ++ f :: post ∧
          (∀ e ∈ pre, e.pos.op = .sendImage ∧ e.outcome ≠ .fail) ∧ f.pos.op = .sendImage ∧
          (f.outcome = .fail ∨ isGet f = true) ∧ (∀ e ∈ post, e.pos.op = .cleanup) ∧
          t.error = { code := if f.outcome = .fail then .hardwareIo else .hardwareTimeout, phase := .transfer,
                      step := BitVec.ofNat 8 f.pos.step, item := BitVec.ofNat 8 f.pos.item } ∧
          t.cleanupErr = cleanupFailed s.params.busyAssertedLevel post ∧
          outsideWait .cleanup post = cleanupEvents s.params.lines s.exported.get s.busOpen))


/-! ### POWER_OFF -/

/-- R101: in Active, when every event succeeds and the busy line is asserted at the first poll, POWER_OFF issues exactly these 14
events and ends in Idle with every line unexported and the bus closed; nothing else of the unit has changed. -/
def Obligations.PowerOffEndsTheSession : Prop :=
  ∀ (s : State) (as rest : List Answer) (a1 : Answer),
    s.busy = false → s.session = true → s.inputs = [] → s.env = as ++ rest → as.length = 14 → (∀ a ∈ as, a.ok = true) →
    as[1]? = some a1 → a1.level = s.params.busyAssertedLevel →
    ∃ entries : List Entry,
      exec .powerOff s = .next { s.completed with
        session := false, exported := noneExported, busOpen := false, env := rest
        now := s.now + 150 + excessMs as, trace := s.trace ++ entries } ∧
      (∀ e ∈ entries, e.outcome ≠ .fail) ∧
      entries.map Entry.event =
        [ .busWrite [0x02, 0x02], .get s.params.lines.busy, .setDir s.params.lines.reset .input,
          .set s.params.lines.cs false, .set s.params.lines.dc false, .set s.params.lines.power false,
          .set s.params.lines.busy false, .delay 150,
          .unexportLine s.params.lines.power, .unexportLine s.params.lines.reset, .unexportLine s.params.lines.cs,
          .unexportLine s.params.lines.dc, .unexportLine s.params.lines.busy, .busClose ]

/-- R101, R103: POWER_OFF in Idle fails with INVALID_STATE and issues no event. -/
def Obligations.PowerOffInIdleIsInvalid : Prop :=
  ∀ s : State, s.busy = false → s.session = false → s.inputs = [] →
    exec .powerOff s = .next { s.completed with
      error := { code := .invalidState, phase := .shutdown, step := 0, item := 0 } }

/-- R101, R102, R103: POWER_OFF always runs to completion. Whatever the environment answers, it ends in Idle; apart from the busy
wait its events are all of the shutdown sequence, in order; and ERROR is the first failure noted: HARDWARE_TIMEOUT at step 1 item 1
when the busy wait timed out, else HARDWARE_IO_ERROR at the first failed event other than step 4's, else none; CLEANUP_ERR stays 0.
-/
def Obligations.PowerOffAlwaysRunsToCompletion : Prop :=
  ∀ s : State, s.busy = false → s.session = true → s.inputs = [] →
    ∃ t, exec .powerOff s = .next t ∧ t.busy = false ∧ t.session = false ∧ t.cleanupErr = false ∧
      t.error = notedError s.params.busyAssertedLevel (newEntries s t) ∧
      outsideWait .powerOff (newEntries s t) =
        [ .busWrite [0x02, 0x02], .setDir s.params.lines.reset .input,
          .set s.params.lines.cs false, .set s.params.lines.dc false, .set s.params.lines.power false,
          .set s.params.lines.busy false, .delay 150,
          .unexportLine s.params.lines.power, .unexportLine s.params.lines.reset, .unexportLine s.params.lines.cs,
          .unexportLine s.params.lines.dc, .unexportLine s.params.lines.busy, .busClose ]


/-- R24, R104: on every exit of a session no line stays exported unless its Unexport was issued and failed: after a POWER_OFF from
Active, and after a POWER_ON or SEND_IMAGE that ended in a hardware error. -/
def Obligations.LinesReleasedOnEveryExit : Prop :=
  ∀ (s t : State) (i : Instr), s.busy = false → s.inputs = [] → exec i s = .next t →
    ((i = .powerOff ∧ s.session = true) ∨ ((i = .powerOn ∨ i = .sendImage) ∧ t.error.code.isHardware = true)) →
    t.session = false ∧
    ∀ l : Line, t.exported.get l = true →
      ∃ e ∈ newEntries s t, e.event = .unexportLine (s.lineNumber l) ∧ e.outcome = .fail

/-! ### Bounds -/

/-- R48, R60: every operation ends, whatever the environment answers. -/
def Obligations.EveryOperationEnds : Prop :=
  ∀ (s : State) (i : Instr), i.channel = .hostCommand → s.busy = false → s.inputs = [] →
    ∃ t, exec i s = .next t ∧ t.busy = false ∧ t.seq = noOperation ∧ t.hazard = false

/-- R94: under any timing every busy wait polls the line at most ceil(T/5) + 1 times: for each position, that of a wait in
SEND_IMAGE, in POWER_OFF or in the CLEANUP that follows a failure, the operation's Gets there are at most so many. -/
def Obligations.BusyWaitPollsBounded : Prop :=
  ∀ (s : State) (i : Instr), i.channel = .hostCommand → s.busy = false → s.inputs = [] →
    ∃ t, exec i s = .next t ∧
      (∀ c : Cursor, (newEntries s t).countP (fun e => isGet e && decide (e.pos = c)) ≤ pollBound s.busyTimeout.toNat + 1) ∧
      (i = .powerOff → (newEntries s t).countP isGet ≤ pollBound s.busyTimeout.toNat + 1)


/-- R94, R103, R129: under ideal timing, when the busy line never reads asserted and no event fails, POWER_OFF polls it exactly
ceil(T/5) + 1 times and notes HARDWARE_TIMEOUT at step 1 item 1 (ERROR 0x00101404, 95_test_vectors.md V-C13). -/
def Obligations.UnansweredWaitTimesOut : Prop :=
  ∀ s : State, s.busy = false → s.session = true → s.inputs = [] →
    (∀ a ∈ s.env, a.ok = true ∧ a.ms = 0 ∧ a.level ≠ s.params.busyAssertedLevel) →
    2 * pollBound s.busyTimeout.toNat + 14 ≤ s.env.length →
    ∃ t, exec .powerOff s = .next t ∧ t.error.word = 0x00101404 ∧
      (newEntries s t).countP isGet = pollBound s.busyTimeout.toNat + 1

/-- R94: one move of WAIT_BUSY, at each of its items (SEND_IMAGE steps 3, 4 and 5, POWER_OFF and CLEANUP step 1): the first poll is at
once; a poll that does not match, before T ms have passed since t0, is followed by Delay(5) and the next poll; a match goes to the next
item; a Get that fails is a HARDWARE_IO_ERROR and a poll that does not match at or past the bound a HARDWARE_TIMEOUT, which SEND_IMAGE
raises (R92), POWER_OFF notes (R101) and CLEANUP records in CLEANUP_ERR (R104). That a move is one Get or one Delay is the model's
choice (log 3). -/
def Obligations.BusyWaitMoves : Prop :=
  ∀ (s : State) (t0 : Nat) (c : Cursor) (target : Bool), s.seq = c →
    ((c = { op := .sendImage, step := 3, item := 0 } ∧ target = s.params.busyAssertedLevel) ∨
      (c = { op := .sendImage, step := 4, item := 1 } ∧ target = !s.params.busyAssertedLevel) ∨
      (c = { op := .sendImage, step := 5, item := 1 } ∧ target = s.params.busyAssertedLevel) ∨
      (c = { op := .powerOff, step := 1, item := 1 } ∧ target = s.params.busyAssertedLevel) ∨
      (c = { op := .cleanup, step := 1, item := 1 } ∧ target = s.params.busyAssertedLevel ∧
        s.busOpen = true ∧ s.exported.busy = true)) →
    (s.wait = .idle → t0 = s.now → s.move = State.move { s with wait := .poll t0 }) ∧
    (s.wait = .sleep t0 → s.move = { s.emit (.delay 5) with wait := .poll t0 }) ∧
    (s.wait = .poll t0 → s.answer.ok = true → s.answer.level ≠ target →
      s.now + s.answer.ms - t0 < s.busyTimeout.toNat →
      s.move = { s.emit (.get s.params.lines.busy) with wait := .sleep t0 }) ∧
    (s.wait = .poll t0 → s.answer.ok = true → s.answer.level = target →
      (c = { op := .sendImage, step := 3, item := 0 } →
        s.move = { s.emit (.get s.params.lines.busy) with seq := { op := .sendImage, step := 4, item := 0 }, wait := .idle }) ∧
      (c = { op := .sendImage, step := 4, item := 1 } →
        s.move = { s.emit (.get s.params.lines.busy) with seq := { op := .sendImage, step := 5, item := 0 }, wait := .idle }) ∧
      (c = { op := .sendImage, step := 5, item := 1 } →
        s.move = { s.emit (.get s.params.lines.busy) with seq := noOperation, busy := false, wait := .idle }) ∧
      (c.op = .powerOff ∨ c.op = .cleanup →
        s.move = { s.emit (.get s.params.lines.busy) with seq := { op := c.op, step := 2, item := 0 }, wait := .idle })) ∧
    (∀ code : ErrorCode, s.wait = .poll t0 →
      ((s.answer.ok = false ∧ code = .hardwareIo) ∨
        (s.answer.ok = true ∧ s.answer.level ≠ target ∧ s.busyTimeout.toNat ≤ s.now + s.answer.ms - t0 ∧
          code = .hardwareTimeout)) →
      (c.op = .sendImage →
        s.move = { s.emit (.get s.params.lines.busy) with
          error := { code := code, phase := .transfer, step := BitVec.ofNat 8 c.step, item := BitVec.ofNat 8 c.item }
          seq := { op := .cleanup, step := 1, item := 0 }, wait := .idle }) ∧
      (c.op = .powerOff →
        s.move = { s.emit (.get s.params.lines.busy) with
          error := if s.error.code = .none then { code := code, phase := .shutdown, step := 1, item := 1 } else s.error
          seq := { op := .powerOff, step := 2, item := 0 }, wait := .idle }) ∧
      (c.op = .cleanup →
        s.move = { s.emit (.get s.params.lines.busy) with
          cleanupErr := true, seq := { op := .cleanup, step := 2, item := 0 }, wait := .idle }))


/-! ### Wire commands -/

/-- R108 to R113: the wire commands of POWER_ON. At its item each is one BusWrite of its bytes; on Ok the cursor moves to the next
item, and after PANEL_SETTINGS the session is up. -/
def Obligations.PowerOnWireCommandsWrite : Prop :=
  ∀ s : State, s.answer.ok = true → s.seq.op = .powerOn →
    (s.seq.step = 3 → s.seq.item = 0 →
      exec .softReset s = .next { s.emit (.busWrite [0x00, 0x0E]) with
        seq := { op := .powerOn, step := 3, item := 1 }, wait := .idle }) ∧
    (s.seq.step = 4 → s.seq.item = 0 → ∀ code : Byte,
      exec (.tempComp code) s = .next { s.emit (.busWrite [0xE5, code]) with
        seq := { op := .powerOn, step := 5, item := 0 }, wait := .idle }) ∧
    (s.seq.step = 5 → s.seq.item = 0 →
      exec .activateA s = .next { s.emit (.busWrite [0xE0, 0x02]) with
        seq := { op := .powerOn, step := 6, item := 0 }, wait := .idle } ∧
      exec .activateB s = .next { s.emit (.busWrite [0xCF, 0x02]) with
        seq := { op := .powerOn, step := 6, item := 0 }, wait := .idle }) ∧
    (s.seq.step = 6 → s.seq.item = 0 →
      exec .panelSettings s = .next { s.emit (.busWrite [0x00, 0x0F, 0x89]) with
        session := true, busy := false, seq := noOperation, wait := .idle })

/-- R92, R108 to R113: when its BusWrite fails, each wire command of POWER_ON raises HARDWARE_IO_ERROR of the INIT phase at its
item, and CLEANUP begins. -/
def Obligations.PowerOnWireCommandsFail : Prop :=
  ∀ (s : State) (i : Instr) (k : Nat), s.answer.ok = false → s.seq = { op := .powerOn, step := k, item := 0 } →
    ((k = 3 ∧ i = .softReset) ∨ (k = 4 ∧ ∃ code, i = .tempComp code) ∨ (k = 5 ∧ (i = .activateA ∨ i = .activateB)) ∨
      (k = 6 ∧ i = .panelSettings)) →
    exec i s = .next { s.emit (.busWrite (Sys2Proof.encode i)) with
      error := { code := .hardwareIo, phase := .init, step := BitVec.ofNat 8 k, item := 0 }
      seq := { op := .cleanup, step := 1, item := 0 }, wait := .idle }

/-- R108, R115 to R119: the wire commands of SEND_IMAGE. REFRESH records Now() in LAST_REFRESH before its write. -/
def Obligations.SendImageWireCommandsWrite : Prop :=
  ∀ s : State, s.answer.ok = true → s.seq.op = .sendImage →
    (s.seq.step = 2 → s.seq.item = 0 →
      exec .layerSelPrimary s = .next { s.emit (.busWrite [0x10]) with
        seq := { op := .sendImage, step := 2, item := 1 }, wait := .idle }) ∧
    (s.seq.step = 2 → s.seq.item = 6 →
      exec .layerSelSecondary s = .next { s.emit (.busWrite [0x13]) with
        seq := { op := .sendImage, step := 2, item := 7 }, wait := .idle }) ∧
    (s.seq.step = 2 → (s.seq.item = 4 ∨ s.seq.item = 10) → ∀ data : List Byte,
      exec (.layerData data) s = .next { s.emit (.busWrite data) with
        seq := { op := .sendImage, step := 2, item := s.seq.item + 1 }, wait := .idle }) ∧
    (s.seq.step = 4 → s.seq.item = 0 →
      exec .powerOnDisplay s = .next { s.emit (.busWrite [0x04, 0x04]) with
        seq := { op := .sendImage, step := 4, item := 1 }, wait := .idle }) ∧
    (s.seq.step = 5 → s.seq.item = 0 →
      exec .refresh s = .next { s.emit (.busWrite [0x12, 0x12]) with
        lastRefresh := BitVec.ofNat 64 s.now, lastRefreshValid := true
        seq := { op := .sendImage, step := 5, item := 1 }, wait := .idle })

/-- R92, R98, R115 to R119: when its BusWrite fails, each wire command of SEND_IMAGE raises HARDWARE_IO_ERROR of the TRANSFER phase
at its item, and CLEANUP begins; a failed REFRESH write has still recorded its time. -/
def Obligations.SendImageWireCommandsFail : Prop :=
  ∀ (s : State) (i : Instr) (j k : Nat), s.answer.ok = false → s.seq = { op := .sendImage, step := j, item := k } →
    ((j = 2 ∧ k = 0 ∧ i = .layerSelPrimary) ∨ (j = 2 ∧ k = 6 ∧ i = .layerSelSecondary) ∨
      (j = 2 ∧ (k = 4 ∨ k = 10) ∧ ∃ data, i = .layerData data) ∨ (j = 4 ∧ k = 0 ∧ i = .powerOnDisplay) ∨
      (j = 5 ∧ k = 0 ∧ i = .refresh)) →
    exec i s = .next { s.emit (.busWrite (Sys2Proof.encode i)) with
      lastRefresh := if i = .refresh then BitVec.ofNat 64 s.now else s.lastRefresh
      lastRefreshValid := if i = .refresh then true else s.lastRefreshValid
      error := { code := .hardwareIo, phase := .transfer, step := BitVec.ofNat 8 j, item := BitVec.ofNat 8 k }
      seq := { op := .cleanup, step := 1, item := 0 }, wait := .idle }

/-- R101, R104, R114: DEEP_SLEEP in POWER_OFF and in CLEANUP. On Ok its busy wait is next; on Fail the wait is skipped, and the
failure is noted in ERROR if ERROR holds none (POWER_OFF), or sets CLEANUP_ERR (CLEANUP). -/
def Obligations.DeepSleepWritesOrIsNoted : Prop :=
  ∀ s : State, s.seq.step = 1 → s.seq.item = 0 →
    (s.seq.op = .powerOff ∨ s.seq.op = .cleanup → s.answer.ok = true →
      exec .deepSleep s = .next { s.emit (.busWrite [0x02, 0x02]) with
        seq := { op := s.seq.op, step := 1, item := 1 }, wait := .idle }) ∧
    (s.seq.op = .powerOff → s.answer.ok = false →
      exec .deepSleep s = .next { s.emit (.busWrite [0x02, 0x02]) with
        error := if s.error.code = .none then { code := .hardwareIo, phase := .shutdown, step := 1, item := 0 } else s.error
        seq := { op := .powerOff, step := 2, item := 0 }, wait := .idle }) ∧
    (s.seq.op = .cleanup → s.answer.ok = false →
      exec .deepSleep s = .next { s.emit (.busWrite [0x02, 0x02]) with
        cleanupErr := true, seq := { op := .cleanup, step := 2, item := 0 }, wait := .idle })

/-- R68, R73, R108: a wire command is written only by the items that name it. The model's stop at every other cursor position is its
own (log 15). -/
def Obligations.WireCommandsStopOffTheirItems : Prop :=
  ∀ s : State,
    (s.seq ≠ { op := .powerOn, step := 3, item := 0 } → exec .softReset s = .fault .wireCommandOffItem) ∧
    (s.seq ≠ { op := .powerOn, step := 4, item := 0 } → ∀ c, exec (.tempComp c) s = .fault .wireCommandOffItem) ∧
    (s.seq ≠ { op := .powerOn, step := 5, item := 0 } →
      exec .activateA s = .fault .wireCommandOffItem ∧ exec .activateB s = .fault .wireCommandOffItem) ∧
    (s.seq ≠ { op := .powerOn, step := 6, item := 0 } → exec .panelSettings s = .fault .wireCommandOffItem) ∧
    (s.seq ≠ { op := .powerOff, step := 1, item := 0 } → s.seq ≠ { op := .cleanup, step := 1, item := 0 } →
      exec .deepSleep s = .fault .wireCommandOffItem) ∧
    (s.seq ≠ { op := .sendImage, step := 2, item := 0 } → exec .layerSelPrimary s = .fault .wireCommandOffItem) ∧
    (s.seq ≠ { op := .sendImage, step := 2, item := 6 } → exec .layerSelSecondary s = .fault .wireCommandOffItem) ∧
    (s.seq ≠ { op := .sendImage, step := 4, item := 0 } → exec .powerOnDisplay s = .fault .wireCommandOffItem) ∧
    (s.seq ≠ { op := .sendImage, step := 5, item := 0 } → exec .refresh s = .fault .wireCommandOffItem) ∧
    (s.seq ≠ { op := .sendImage, step := 2, item := 4 } → s.seq ≠ { op := .sendImage, step := 2, item := 10 } →
      ∀ d, exec (.layerData d) s = .fault .wireCommandOffItem)

/-- The step takes the fault of a wire command off its item nowhere: no step faults. -/
def Obligations.NoStepFaults : Prop :=
  ∀ (s : State) (r : Fault), step s ≠ .fault r

/-! ### Frames and rules of the whole machine -/

/-- R34, R26, R29: only ENCODE writes the layers, the frame's registers, ERR_X and ERR_Y; and no instruction writes the registers
the host writes. The frame of every instruction but ENCODE, for every answer of the environment. -/
def Obligations.OnlyEncodeWritesTheFrame : Prop :=
  ∀ (i : Instr) (s t : State), exec i s = .next t → t.hostSide = s.hostSide ∧ (i ≠ .encode → t.frameSide = s.frameSide)

/-- R33, R36: LAST_REFRESH and LAST_REFRESH_VALID are written by SEND_IMAGE and its REFRESH alone; they survive POWER_ON, POWER_OFF,
ENCODE and every other wire command. -/
def Obligations.OnlyRefreshWritesLastRefresh : Prop :=
  ∀ (i : Instr) (s t : State), exec i s = .next t → i ≠ .sendImage → i ≠ .refresh →
    t.lastRefresh = s.lastRefresh ∧ t.lastRefreshValid = s.lastRefreshValid

/-- R106, R127: SESSION is set only by POWER_ON (its command, or a step of its operation), and cleared only by POWER_OFF or a
CLEANUP (a step of it, or a SEND_IMAGE whose step shows an event of CLEANUP); nothing else changes it. -/
def Obligations.SessionChangesOnlyByTheController : Prop :=
  ∀ s t : State, step s = .next t →
    (s.session = false → t.session = true →
      s.seq.op = .powerOn ∨ s.fetch = .bytes .hostCommand (Sys2Proof.encode .powerOn)) ∧
    (s.session = true → t.session = false →
      s.seq.op = .powerOff ∨ s.seq.op = .cleanup ∨ s.fetch = .bytes .hostCommand (Sys2Proof.encode .powerOff) ∨
        (s.fetch = .bytes .hostCommand (Sys2Proof.encode .sendImage) ∧ ∃ e ∈ newEntries s t, e.pos.op = .cleanup))

/-- R128: Now() never decreases. -/
def Obligations.TimeNeverDecreases : Prop :=
  ∀ s t : State, step s = .next t → s.now ≤ t.now

/-! ### Invariants -/

/-- Every invariant below holds after reset. -/
def Obligations.ResetMeetsEveryInvariant : Prop :=
  memoriesCanonical State.reset ∧ cursorInvariant State.reset ∧ frameInvariant State.reset ∧
    linesInvariant State.reset ∧ refreshInvariant State.reset ∧ traceInvariant State.reset ∧ handlesInvariant State.reset

/-- Every step keeps the layer memories in canonical form (log 12). -/
def Obligations.StepKeepsLayersCanonical : Prop :=
  ∀ s t : State, memoriesCanonical s → step s = .next t → memoriesCanonical t

/-- R18: BUSY = 1 exactly while an operation runs, and the cursor stands at one of its items. -/
def Obligations.StepKeepsCursorInvariant : Prop :=
  ∀ s t : State, cursorInvariant s → step s = .next t → cursorInvariant t

/-- R22, R34, R84: FRAME_VALID = 1 means that a whole frame is held, with an all-zero secondary layer. -/
def Obligations.StepKeepsFrameWhole : Prop :=
  ∀ s t : State, frameInvariant s → step s = .next t → frameInvariant t

/-- R24, R93, R107, R108: an Active session holds every handle; its lines stand as R107 lists them; each wire command of POWER_ON,
SEND_IMAGE and POWER_OFF goes out with CS = 0 and DC = 0, and each payload with CS = 0 and DC = 1. -/
def Obligations.StepKeepsSessionLines : Prop :=
  ∀ s t : State, linesInvariant s → step s = .next t → linesInvariant t

/-- R33, R98: any two attempts to write REFRESH since the unit reset are at least 180 000 ms apart. -/
def Obligations.StepKeepsRefreshInterval : Prop :=
  ∀ s t : State, refreshInvariant s → step s = .next t → refreshInvariant t

/-- R53, R56, R68, R90, R91, R148: every event the unit issues is one it may issue; the reserved line
and line 25 are never driven, the bus clock never exceeds
10 MHz, and every BusWrite is a wire command or, in the payload bracket, a payload. -/
def Obligations.StepKeepsTraceAllowed : Prop :=
  ∀ s t : State, traceInvariant s → step s = .next t → traceInvariant t

/-- R24, R56, R57: an EXPORTED bit is 1 only between a successful Export and a successful Unexport of its line, and BUS_OPEN only
between a successful BusOpen and a successful BusClose, as the trace shows them. R104: CLEANUP issues a line event only on a line that
is held, and its DEEP_SLEEP and its BusClose only while the bus is open. -/
def Obligations.StepKeepsHandlesAccounted : Prop :=
  ∀ s t : State, handlesInvariant s → step s = .next t → handlesInvariant t

/-! ### The bits on the wire -/

/-- R52: the bytes of a BusWrite go out in index order, each most significant bit first where WIRE_MSB_FIRST is true, its default
("MSB-first is the usual default of mode-0 serial buses [from general knowledge, not in source]"; D22 makes it a parameter). That
false reverses the bits of each byte, and that a BusWrite counts once it has succeeded, are the model's choices (log 25). -/
def Obligations.WireBitsInOrder : Prop :=
  ∀ (s : State) (bytes : List Byte) (i j : Nat), j < 8 →
    (s.busBits bytes).length = 8 * bytes.length ∧
    (s.params.wireMsbFirst = true → (s.busBits bytes)[8 * i + j]? = bytes[i]?.map (fun b => b.getLsbD (7 - j))) ∧
    (s.params.wireMsbFirst = false → (s.busBits bytes)[8 * i + j]? = bytes[i]?.map (fun b => b.getLsbD j)) ∧
    (s.answer.ok = true → (s.emit (.busWrite bytes)).sentBits = s.sentBits ++ s.busBits bytes) ∧
    (∀ e : Event, ((∃ bs, e = .busWrite bs) → s.answer.ok = false) → (s.emit e).sentBits = s.sentBits)
end

