-- ==== Sys2Proof/Laws/State.lean ====
section
/-! SUPPORT. What each update of the state leaves and changes: one lemma for each field and update, so that no proof unfolds a
record update. -/

namespace Sys2Proof.Machine

/-! ### `endOperation` -/

@[simp] theorem State.endOperation_params (s : State) : (s.endOperation).params = s.params := rfl
@[simp] theorem State.endOperation_busy (s : State) : (s.endOperation).busy = false := rfl
@[simp] theorem State.endOperation_session (s : State) : (s.endOperation).session = s.session := rfl
@[simp] theorem State.endOperation_frameValid (s : State) : (s.endOperation).frameValid = s.frameValid := rfl
@[simp] theorem State.endOperation_hazard (s : State) : (s.endOperation).hazard = s.hazard := rfl
@[simp] theorem State.endOperation_lastRefreshValid (s : State) : (s.endOperation).lastRefreshValid = s.lastRefreshValid := rfl
@[simp] theorem State.endOperation_cleanupErr (s : State) : (s.endOperation).cleanupErr = s.cleanupErr := rfl
@[simp] theorem State.endOperation_busOpen (s : State) : (s.endOperation).busOpen = s.busOpen := rfl
@[simp] theorem State.endOperation_exported (s : State) : (s.endOperation).exported = s.exported := rfl
@[simp] theorem State.endOperation_error (s : State) : (s.endOperation).error = s.error := rfl
@[simp] theorem State.endOperation_errX (s : State) : (s.endOperation).errX = s.errX := rfl
@[simp] theorem State.endOperation_errY (s : State) : (s.endOperation).errY = s.errY := rfl
@[simp] theorem State.endOperation_encWidth (s : State) : (s.endOperation).encWidth = s.encWidth := rfl
@[simp] theorem State.endOperation_encHeight (s : State) : (s.endOperation).encHeight = s.encHeight := rfl
@[simp] theorem State.endOperation_encColor (s : State) : (s.endOperation).encColor = s.encColor := rfl
@[simp] theorem State.endOperation_frameWidth (s : State) : (s.endOperation).frameWidth = s.frameWidth := rfl
@[simp] theorem State.endOperation_frameHeight (s : State) : (s.endOperation).frameHeight = s.frameHeight := rfl
@[simp] theorem State.endOperation_frameColor (s : State) : (s.endOperation).frameColor = s.frameColor := rfl
@[simp] theorem State.endOperation_panelWidth (s : State) : (s.endOperation).panelWidth = s.panelWidth := rfl
@[simp] theorem State.endOperation_panelHeight (s : State) : (s.endOperation).panelHeight = s.panelHeight := rfl
@[simp] theorem State.endOperation_tempCode (s : State) : (s.endOperation).tempCode = s.tempCode := rfl
@[simp] theorem State.endOperation_busyTimeout (s : State) : (s.endOperation).busyTimeout = s.busyTimeout := rfl
@[simp] theorem State.endOperation_lastRefresh (s : State) : (s.endOperation).lastRefresh = s.lastRefresh := rfl
@[simp] theorem State.endOperation_primary (s : State) : (s.endOperation).primary = s.primary := rfl
@[simp] theorem State.endOperation_secondary (s : State) : (s.endOperation).secondary = s.secondary := rfl
@[simp] theorem State.endOperation_seq (s : State) : (s.endOperation).seq = noOperation := rfl
@[simp] theorem State.endOperation_pixel (s : State) : (s.endOperation).pixel = s.pixel := rfl
@[simp] theorem State.endOperation_wait (s : State) : (s.endOperation).wait = .idle := rfl
@[simp] theorem State.endOperation_now (s : State) : (s.endOperation).now = s.now := rfl
@[simp] theorem State.endOperation_srcWidth (s : State) : (s.endOperation).srcWidth = s.srcWidth := rfl
@[simp] theorem State.endOperation_srcHeight (s : State) : (s.endOperation).srcHeight = s.srcHeight := rfl
@[simp] theorem State.endOperation_env (s : State) : (s.endOperation).env = s.env := rfl
@[simp] theorem State.endOperation_draws (s : State) : (s.endOperation).draws = s.draws := rfl
@[simp] theorem State.endOperation_forgotten (s : State) : (s.endOperation).forgotten = s.forgotten := rfl
@[simp] theorem State.endOperation_inputs (s : State) : (s.endOperation).inputs = s.inputs := rfl
@[simp] theorem State.endOperation_trace (s : State) : (s.endOperation).trace = s.trace := rfl
@[simp] theorem State.endOperation_replies (s : State) : (s.endOperation).replies = s.replies := rfl

/-! ### `setError` -/

@[simp] theorem State.setError_params (e : ErrorCode) (p : Phase) (j k : Nat) (s : State) : (s.setError e p j k).params = s.params := rfl
@[simp] theorem State.setError_busy (e : ErrorCode) (p : Phase) (j k : Nat) (s : State) : (s.setError e p j k).busy = s.busy := rfl
@[simp] theorem State.setError_session (e : ErrorCode) (p : Phase) (j k : Nat) (s : State) : (s.setError e p j k).session = s.session := rfl
@[simp] theorem State.setError_frameValid (e : ErrorCode) (p : Phase) (j k : Nat) (s : State) : (s.setError e p j k).frameValid = s.frameValid := rfl
@[simp] theorem State.setError_hazard (e : ErrorCode) (p : Phase) (j k : Nat) (s : State) : (s.setError e p j k).hazard = s.hazard := rfl
@[simp] theorem State.setError_lastRefreshValid (e : ErrorCode) (p : Phase) (j k : Nat) (s : State) : (s.setError e p j k).lastRefreshValid = s.lastRefreshValid := rfl
@[simp] theorem State.setError_cleanupErr (e : ErrorCode) (p : Phase) (j k : Nat) (s : State) : (s.setError e p j k).cleanupErr = s.cleanupErr := rfl
@[simp] theorem State.setError_busOpen (e : ErrorCode) (p : Phase) (j k : Nat) (s : State) : (s.setError e p j k).busOpen = s.busOpen := rfl
@[simp] theorem State.setError_exported (e : ErrorCode) (p : Phase) (j k : Nat) (s : State) : (s.setError e p j k).exported = s.exported := rfl
@[simp] theorem State.setError_error (e : ErrorCode) (p : Phase) (j k : Nat) (s : State) : (s.setError e p j k).error = { code := e, phase := p, step := BitVec.ofNat 8 j, item := BitVec.ofNat 8 k } := rfl
@[simp] theorem State.setError_errX (e : ErrorCode) (p : Phase) (j k : Nat) (s : State) : (s.setError e p j k).errX = s.errX := rfl
@[simp] theorem State.setError_errY (e : ErrorCode) (p : Phase) (j k : Nat) (s : State) : (s.setError e p j k).errY = s.errY := rfl
@[simp] theorem State.setError_encWidth (e : ErrorCode) (p : Phase) (j k : Nat) (s : State) : (s.setError e p j k).encWidth = s.encWidth := rfl
@[simp] theorem State.setError_encHeight (e : ErrorCode) (p : Phase) (j k : Nat) (s : State) : (s.setError e p j k).encHeight = s.encHeight := rfl
@[simp] theorem State.setError_encColor (e : ErrorCode) (p : Phase) (j k : Nat) (s : State) : (s.setError e p j k).encColor = s.encColor := rfl
@[simp] theorem State.setError_frameWidth (e : ErrorCode) (p : Phase) (j k : Nat) (s : State) : (s.setError e p j k).frameWidth = s.frameWidth := rfl
@[simp] theorem State.setError_frameHeight (e : ErrorCode) (p : Phase) (j k : Nat) (s : State) : (s.setError e p j k).frameHeight = s.frameHeight := rfl
@[simp] theorem State.setError_frameColor (e : ErrorCode) (p : Phase) (j k : Nat) (s : State) : (s.setError e p j k).frameColor = s.frameColor := rfl
@[simp] theorem State.setError_panelWidth (e : ErrorCode) (p : Phase) (j k : Nat) (s : State) : (s.setError e p j k).panelWidth = s.panelWidth := rfl
@[simp] theorem State.setError_panelHeight (e : ErrorCode) (p : Phase) (j k : Nat) (s : State) : (s.setError e p j k).panelHeight = s.panelHeight := rfl
@[simp] theorem State.setError_tempCode (e : ErrorCode) (p : Phase) (j k : Nat) (s : State) : (s.setError e p j k).tempCode = s.tempCode := rfl
@[simp] theorem State.setError_busyTimeout (e : ErrorCode) (p : Phase) (j k : Nat) (s : State) : (s.setError e p j k).busyTimeout = s.busyTimeout := rfl
@[simp] theorem State.setError_lastRefresh (e : ErrorCode) (p : Phase) (j k : Nat) (s : State) : (s.setError e p j k).lastRefresh = s.lastRefresh := rfl
@[simp] theorem State.setError_primary (e : ErrorCode) (p : Phase) (j k : Nat) (s : State) : (s.setError e p j k).primary = s.primary := rfl
@[simp] theorem State.setError_secondary (e : ErrorCode) (p : Phase) (j k : Nat) (s : State) : (s.setError e p j k).secondary = s.secondary := rfl
@[simp] theorem State.setError_seq (e : ErrorCode) (p : Phase) (j k : Nat) (s : State) : (s.setError e p j k).seq = s.seq := rfl
@[simp] theorem State.setError_pixel (e : ErrorCode) (p : Phase) (j k : Nat) (s : State) : (s.setError e p j k).pixel = s.pixel := rfl
@[simp] theorem State.setError_wait (e : ErrorCode) (p : Phase) (j k : Nat) (s : State) : (s.setError e p j k).wait = s.wait := rfl
@[simp] theorem State.setError_now (e : ErrorCode) (p : Phase) (j k : Nat) (s : State) : (s.setError e p j k).now = s.now := rfl
@[simp] theorem State.setError_srcWidth (e : ErrorCode) (p : Phase) (j k : Nat) (s : State) : (s.setError e p j k).srcWidth = s.srcWidth := rfl
@[simp] theorem State.setError_srcHeight (e : ErrorCode) (p : Phase) (j k : Nat) (s : State) : (s.setError e p j k).srcHeight = s.srcHeight := rfl
@[simp] theorem State.setError_env (e : ErrorCode) (p : Phase) (j k : Nat) (s : State) : (s.setError e p j k).env = s.env := rfl
@[simp] theorem State.setError_draws (e : ErrorCode) (p : Phase) (j k : Nat) (s : State) : (s.setError e p j k).draws = s.draws := rfl
@[simp] theorem State.setError_forgotten (e : ErrorCode) (p : Phase) (j k : Nat) (s : State) : (s.setError e p j k).forgotten = s.forgotten := rfl
@[simp] theorem State.setError_inputs (e : ErrorCode) (p : Phase) (j k : Nat) (s : State) : (s.setError e p j k).inputs = s.inputs := rfl
@[simp] theorem State.setError_trace (e : ErrorCode) (p : Phase) (j k : Nat) (s : State) : (s.setError e p j k).trace = s.trace := rfl
@[simp] theorem State.setError_replies (e : ErrorCode) (p : Phase) (j k : Nat) (s : State) : (s.setError e p j k).replies = s.replies := rfl

/-! ### `startCleanup` -/

@[simp] theorem State.startCleanup_params (s : State) : (s.startCleanup).params = s.params := rfl
@[simp] theorem State.startCleanup_busy (s : State) : (s.startCleanup).busy = s.busy := rfl
@[simp] theorem State.startCleanup_session (s : State) : (s.startCleanup).session = s.session := rfl
@[simp] theorem State.startCleanup_frameValid (s : State) : (s.startCleanup).frameValid = s.frameValid := rfl
@[simp] theorem State.startCleanup_hazard (s : State) : (s.startCleanup).hazard = s.hazard := rfl
@[simp] theorem State.startCleanup_lastRefreshValid (s : State) : (s.startCleanup).lastRefreshValid = s.lastRefreshValid := rfl
@[simp] theorem State.startCleanup_cleanupErr (s : State) : (s.startCleanup).cleanupErr = s.cleanupErr := rfl
@[simp] theorem State.startCleanup_busOpen (s : State) : (s.startCleanup).busOpen = s.busOpen := rfl
@[simp] theorem State.startCleanup_exported (s : State) : (s.startCleanup).exported = s.exported := rfl
@[simp] theorem State.startCleanup_error (s : State) : (s.startCleanup).error = s.error := rfl
@[simp] theorem State.startCleanup_errX (s : State) : (s.startCleanup).errX = s.errX := rfl
@[simp] theorem State.startCleanup_errY (s : State) : (s.startCleanup).errY = s.errY := rfl
@[simp] theorem State.startCleanup_encWidth (s : State) : (s.startCleanup).encWidth = s.encWidth := rfl
@[simp] theorem State.startCleanup_encHeight (s : State) : (s.startCleanup).encHeight = s.encHeight := rfl
@[simp] theorem State.startCleanup_encColor (s : State) : (s.startCleanup).encColor = s.encColor := rfl
@[simp] theorem State.startCleanup_frameWidth (s : State) : (s.startCleanup).frameWidth = s.frameWidth := rfl
@[simp] theorem State.startCleanup_frameHeight (s : State) : (s.startCleanup).frameHeight = s.frameHeight := rfl
@[simp] theorem State.startCleanup_frameColor (s : State) : (s.startCleanup).frameColor = s.frameColor := rfl
@[simp] theorem State.startCleanup_panelWidth (s : State) : (s.startCleanup).panelWidth = s.panelWidth := rfl
@[simp] theorem State.startCleanup_panelHeight (s : State) : (s.startCleanup).panelHeight = s.panelHeight := rfl
@[simp] theorem State.startCleanup_tempCode (s : State) : (s.startCleanup).tempCode = s.tempCode := rfl
@[simp] theorem State.startCleanup_busyTimeout (s : State) : (s.startCleanup).busyTimeout = s.busyTimeout := rfl
@[simp] theorem State.startCleanup_lastRefresh (s : State) : (s.startCleanup).lastRefresh = s.lastRefresh := rfl
@[simp] theorem State.startCleanup_primary (s : State) : (s.startCleanup).primary = s.primary := rfl
@[simp] theorem State.startCleanup_secondary (s : State) : (s.startCleanup).secondary = s.secondary := rfl
@[simp] theorem State.startCleanup_seq (s : State) : (s.startCleanup).seq = { op := .cleanup, step := 1, item := 0 } := rfl
@[simp] theorem State.startCleanup_pixel (s : State) : (s.startCleanup).pixel = s.pixel := rfl
@[simp] theorem State.startCleanup_wait (s : State) : (s.startCleanup).wait = .idle := rfl
@[simp] theorem State.startCleanup_now (s : State) : (s.startCleanup).now = s.now := rfl
@[simp] theorem State.startCleanup_srcWidth (s : State) : (s.startCleanup).srcWidth = s.srcWidth := rfl
@[simp] theorem State.startCleanup_srcHeight (s : State) : (s.startCleanup).srcHeight = s.srcHeight := rfl
@[simp] theorem State.startCleanup_env (s : State) : (s.startCleanup).env = s.env := rfl
@[simp] theorem State.startCleanup_draws (s : State) : (s.startCleanup).draws = s.draws := rfl
@[simp] theorem State.startCleanup_forgotten (s : State) : (s.startCleanup).forgotten = s.forgotten := rfl
@[simp] theorem State.startCleanup_inputs (s : State) : (s.startCleanup).inputs = s.inputs := rfl
@[simp] theorem State.startCleanup_trace (s : State) : (s.startCleanup).trace = s.trace := rfl
@[simp] theorem State.startCleanup_replies (s : State) : (s.startCleanup).replies = s.replies := rfl

/-! ### `cleanupFail` -/

@[simp] theorem State.cleanupFail_params (s : State) : (s.cleanupFail).params = s.params := rfl
@[simp] theorem State.cleanupFail_busy (s : State) : (s.cleanupFail).busy = s.busy := rfl
@[simp] theorem State.cleanupFail_session (s : State) : (s.cleanupFail).session = s.session := rfl
@[simp] theorem State.cleanupFail_frameValid (s : State) : (s.cleanupFail).frameValid = s.frameValid := rfl
@[simp] theorem State.cleanupFail_hazard (s : State) : (s.cleanupFail).hazard = s.hazard := rfl
@[simp] theorem State.cleanupFail_lastRefreshValid (s : State) : (s.cleanupFail).lastRefreshValid = s.lastRefreshValid := rfl
@[simp] theorem State.cleanupFail_cleanupErr (s : State) : (s.cleanupFail).cleanupErr = true := rfl
@[simp] theorem State.cleanupFail_busOpen (s : State) : (s.cleanupFail).busOpen = s.busOpen := rfl
@[simp] theorem State.cleanupFail_exported (s : State) : (s.cleanupFail).exported = s.exported := rfl
@[simp] theorem State.cleanupFail_error (s : State) : (s.cleanupFail).error = s.error := rfl
@[simp] theorem State.cleanupFail_errX (s : State) : (s.cleanupFail).errX = s.errX := rfl
@[simp] theorem State.cleanupFail_errY (s : State) : (s.cleanupFail).errY = s.errY := rfl
@[simp] theorem State.cleanupFail_encWidth (s : State) : (s.cleanupFail).encWidth = s.encWidth := rfl
@[simp] theorem State.cleanupFail_encHeight (s : State) : (s.cleanupFail).encHeight = s.encHeight := rfl
@[simp] theorem State.cleanupFail_encColor (s : State) : (s.cleanupFail).encColor = s.encColor := rfl
@[simp] theorem State.cleanupFail_frameWidth (s : State) : (s.cleanupFail).frameWidth = s.frameWidth := rfl
@[simp] theorem State.cleanupFail_frameHeight (s : State) : (s.cleanupFail).frameHeight = s.frameHeight := rfl
@[simp] theorem State.cleanupFail_frameColor (s : State) : (s.cleanupFail).frameColor = s.frameColor := rfl
@[simp] theorem State.cleanupFail_panelWidth (s : State) : (s.cleanupFail).panelWidth = s.panelWidth := rfl
@[simp] theorem State.cleanupFail_panelHeight (s : State) : (s.cleanupFail).panelHeight = s.panelHeight := rfl
@[simp] theorem State.cleanupFail_tempCode (s : State) : (s.cleanupFail).tempCode = s.tempCode := rfl
@[simp] theorem State.cleanupFail_busyTimeout (s : State) : (s.cleanupFail).busyTimeout = s.busyTimeout := rfl
@[simp] theorem State.cleanupFail_lastRefresh (s : State) : (s.cleanupFail).lastRefresh = s.lastRefresh := rfl
@[simp] theorem State.cleanupFail_primary (s : State) : (s.cleanupFail).primary = s.primary := rfl
@[simp] theorem State.cleanupFail_secondary (s : State) : (s.cleanupFail).secondary = s.secondary := rfl
@[simp] theorem State.cleanupFail_seq (s : State) : (s.cleanupFail).seq = s.seq := rfl
@[simp] theorem State.cleanupFail_pixel (s : State) : (s.cleanupFail).pixel = s.pixel := rfl
@[simp] theorem State.cleanupFail_wait (s : State) : (s.cleanupFail).wait = s.wait := rfl
@[simp] theorem State.cleanupFail_now (s : State) : (s.cleanupFail).now = s.now := rfl
@[simp] theorem State.cleanupFail_srcWidth (s : State) : (s.cleanupFail).srcWidth = s.srcWidth := rfl
@[simp] theorem State.cleanupFail_srcHeight (s : State) : (s.cleanupFail).srcHeight = s.srcHeight := rfl
@[simp] theorem State.cleanupFail_env (s : State) : (s.cleanupFail).env = s.env := rfl
@[simp] theorem State.cleanupFail_draws (s : State) : (s.cleanupFail).draws = s.draws := rfl
@[simp] theorem State.cleanupFail_forgotten (s : State) : (s.cleanupFail).forgotten = s.forgotten := rfl
@[simp] theorem State.cleanupFail_inputs (s : State) : (s.cleanupFail).inputs = s.inputs := rfl
@[simp] theorem State.cleanupFail_trace (s : State) : (s.cleanupFail).trace = s.trace := rfl
@[simp] theorem State.cleanupFail_replies (s : State) : (s.cleanupFail).replies = s.replies := rfl

/-! ### `acceptCommand` -/

@[simp] theorem State.acceptCommand_params (op : Op) (j : Nat) (s : State) : (s.acceptCommand op j).params = s.params := rfl
@[simp] theorem State.acceptCommand_busy (op : Op) (j : Nat) (s : State) : (s.acceptCommand op j).busy = true := rfl
@[simp] theorem State.acceptCommand_session (op : Op) (j : Nat) (s : State) : (s.acceptCommand op j).session = s.session := rfl
@[simp] theorem State.acceptCommand_frameValid (op : Op) (j : Nat) (s : State) : (s.acceptCommand op j).frameValid = s.frameValid := rfl
@[simp] theorem State.acceptCommand_hazard (op : Op) (j : Nat) (s : State) : (s.acceptCommand op j).hazard = false := rfl
@[simp] theorem State.acceptCommand_lastRefreshValid (op : Op) (j : Nat) (s : State) : (s.acceptCommand op j).lastRefreshValid = s.lastRefreshValid := rfl
@[simp] theorem State.acceptCommand_cleanupErr (op : Op) (j : Nat) (s : State) : (s.acceptCommand op j).cleanupErr = false := rfl
@[simp] theorem State.acceptCommand_busOpen (op : Op) (j : Nat) (s : State) : (s.acceptCommand op j).busOpen = s.busOpen := rfl
@[simp] theorem State.acceptCommand_exported (op : Op) (j : Nat) (s : State) : (s.acceptCommand op j).exported = s.exported := rfl
@[simp] theorem State.acceptCommand_error (op : Op) (j : Nat) (s : State) : (s.acceptCommand op j).error = noError := rfl
@[simp] theorem State.acceptCommand_errX (op : Op) (j : Nat) (s : State) : (s.acceptCommand op j).errX = s.errX := rfl
@[simp] theorem State.acceptCommand_errY (op : Op) (j : Nat) (s : State) : (s.acceptCommand op j).errY = s.errY := rfl
@[simp] theorem State.acceptCommand_encWidth (op : Op) (j : Nat) (s : State) : (s.acceptCommand op j).encWidth = s.encWidth := rfl
@[simp] theorem State.acceptCommand_encHeight (op : Op) (j : Nat) (s : State) : (s.acceptCommand op j).encHeight = s.encHeight := rfl
@[simp] theorem State.acceptCommand_encColor (op : Op) (j : Nat) (s : State) : (s.acceptCommand op j).encColor = s.encColor := rfl
@[simp] theorem State.acceptCommand_frameWidth (op : Op) (j : Nat) (s : State) : (s.acceptCommand op j).frameWidth = s.frameWidth := rfl
@[simp] theorem State.acceptCommand_frameHeight (op : Op) (j : Nat) (s : State) : (s.acceptCommand op j).frameHeight = s.frameHeight := rfl
@[simp] theorem State.acceptCommand_frameColor (op : Op) (j : Nat) (s : State) : (s.acceptCommand op j).frameColor = s.frameColor := rfl
@[simp] theorem State.acceptCommand_panelWidth (op : Op) (j : Nat) (s : State) : (s.acceptCommand op j).panelWidth = s.panelWidth := rfl
@[simp] theorem State.acceptCommand_panelHeight (op : Op) (j : Nat) (s : State) : (s.acceptCommand op j).panelHeight = s.panelHeight := rfl
@[simp] theorem State.acceptCommand_tempCode (op : Op) (j : Nat) (s : State) : (s.acceptCommand op j).tempCode = s.tempCode := rfl
@[simp] theorem State.acceptCommand_busyTimeout (op : Op) (j : Nat) (s : State) : (s.acceptCommand op j).busyTimeout = s.busyTimeout := rfl
@[simp] theorem State.acceptCommand_lastRefresh (op : Op) (j : Nat) (s : State) : (s.acceptCommand op j).lastRefresh = s.lastRefresh := rfl
@[simp] theorem State.acceptCommand_primary (op : Op) (j : Nat) (s : State) : (s.acceptCommand op j).primary = s.primary := rfl
@[simp] theorem State.acceptCommand_secondary (op : Op) (j : Nat) (s : State) : (s.acceptCommand op j).secondary = s.secondary := rfl
@[simp] theorem State.acceptCommand_seq (op : Op) (j : Nat) (s : State) : (s.acceptCommand op j).seq = { op := op, step := j, item := 0 } := rfl
@[simp] theorem State.acceptCommand_pixel (op : Op) (j : Nat) (s : State) : (s.acceptCommand op j).pixel = s.pixel := rfl
@[simp] theorem State.acceptCommand_wait (op : Op) (j : Nat) (s : State) : (s.acceptCommand op j).wait = .idle := rfl
@[simp] theorem State.acceptCommand_now (op : Op) (j : Nat) (s : State) : (s.acceptCommand op j).now = s.now := rfl
@[simp] theorem State.acceptCommand_srcWidth (op : Op) (j : Nat) (s : State) : (s.acceptCommand op j).srcWidth = s.srcWidth := rfl
@[simp] theorem State.acceptCommand_srcHeight (op : Op) (j : Nat) (s : State) : (s.acceptCommand op j).srcHeight = s.srcHeight := rfl
@[simp] theorem State.acceptCommand_env (op : Op) (j : Nat) (s : State) : (s.acceptCommand op j).env = s.env := rfl
@[simp] theorem State.acceptCommand_draws (op : Op) (j : Nat) (s : State) : (s.acceptCommand op j).draws = s.draws := rfl
@[simp] theorem State.acceptCommand_forgotten (op : Op) (j : Nat) (s : State) : (s.acceptCommand op j).forgotten = s.forgotten := rfl
@[simp] theorem State.acceptCommand_inputs (op : Op) (j : Nat) (s : State) : (s.acceptCommand op j).inputs = s.inputs := rfl
@[simp] theorem State.acceptCommand_trace (op : Op) (j : Nat) (s : State) : (s.acceptCommand op j).trace = s.trace := rfl
@[simp] theorem State.acceptCommand_replies (op : Op) (j : Nat) (s : State) : (s.acceptCommand op j).replies = s.replies := rfl

/-! ### `dropWrite` -/

@[simp] theorem State.dropWrite_params (s : State) : (s.dropWrite).params = s.params := rfl
@[simp] theorem State.dropWrite_busy (s : State) : (s.dropWrite).busy = s.busy := rfl
@[simp] theorem State.dropWrite_session (s : State) : (s.dropWrite).session = s.session := rfl
@[simp] theorem State.dropWrite_frameValid (s : State) : (s.dropWrite).frameValid = s.frameValid := rfl
@[simp] theorem State.dropWrite_hazard (s : State) : (s.dropWrite).hazard = true := rfl
@[simp] theorem State.dropWrite_lastRefreshValid (s : State) : (s.dropWrite).lastRefreshValid = s.lastRefreshValid := rfl
@[simp] theorem State.dropWrite_cleanupErr (s : State) : (s.dropWrite).cleanupErr = s.cleanupErr := rfl
@[simp] theorem State.dropWrite_busOpen (s : State) : (s.dropWrite).busOpen = s.busOpen := rfl
@[simp] theorem State.dropWrite_exported (s : State) : (s.dropWrite).exported = s.exported := rfl
@[simp] theorem State.dropWrite_error (s : State) : (s.dropWrite).error = s.error := rfl
@[simp] theorem State.dropWrite_errX (s : State) : (s.dropWrite).errX = s.errX := rfl
@[simp] theorem State.dropWrite_errY (s : State) : (s.dropWrite).errY = s.errY := rfl
@[simp] theorem State.dropWrite_encWidth (s : State) : (s.dropWrite).encWidth = s.encWidth := rfl
@[simp] theorem State.dropWrite_encHeight (s : State) : (s.dropWrite).encHeight = s.encHeight := rfl
@[simp] theorem State.dropWrite_encColor (s : State) : (s.dropWrite).encColor = s.encColor := rfl
@[simp] theorem State.dropWrite_frameWidth (s : State) : (s.dropWrite).frameWidth = s.frameWidth := rfl
@[simp] theorem State.dropWrite_frameHeight (s : State) : (s.dropWrite).frameHeight = s.frameHeight := rfl
@[simp] theorem State.dropWrite_frameColor (s : State) : (s.dropWrite).frameColor = s.frameColor := rfl
@[simp] theorem State.dropWrite_panelWidth (s : State) : (s.dropWrite).panelWidth = s.panelWidth := rfl
@[simp] theorem State.dropWrite_panelHeight (s : State) : (s.dropWrite).panelHeight = s.panelHeight := rfl
@[simp] theorem State.dropWrite_tempCode (s : State) : (s.dropWrite).tempCode = s.tempCode := rfl
@[simp] theorem State.dropWrite_busyTimeout (s : State) : (s.dropWrite).busyTimeout = s.busyTimeout := rfl
@[simp] theorem State.dropWrite_lastRefresh (s : State) : (s.dropWrite).lastRefresh = s.lastRefresh := rfl
@[simp] theorem State.dropWrite_primary (s : State) : (s.dropWrite).primary = s.primary := rfl
@[simp] theorem State.dropWrite_secondary (s : State) : (s.dropWrite).secondary = s.secondary := rfl
@[simp] theorem State.dropWrite_seq (s : State) : (s.dropWrite).seq = s.seq := rfl
@[simp] theorem State.dropWrite_pixel (s : State) : (s.dropWrite).pixel = s.pixel := rfl
@[simp] theorem State.dropWrite_wait (s : State) : (s.dropWrite).wait = s.wait := rfl
@[simp] theorem State.dropWrite_now (s : State) : (s.dropWrite).now = s.now := rfl
@[simp] theorem State.dropWrite_srcWidth (s : State) : (s.dropWrite).srcWidth = s.srcWidth := rfl
@[simp] theorem State.dropWrite_srcHeight (s : State) : (s.dropWrite).srcHeight = s.srcHeight := rfl
@[simp] theorem State.dropWrite_env (s : State) : (s.dropWrite).env = s.env := rfl
@[simp] theorem State.dropWrite_draws (s : State) : (s.dropWrite).draws = s.draws := rfl
@[simp] theorem State.dropWrite_forgotten (s : State) : (s.dropWrite).forgotten = s.forgotten := rfl
@[simp] theorem State.dropWrite_inputs (s : State) : (s.dropWrite).inputs = s.inputs := rfl
@[simp] theorem State.dropWrite_trace (s : State) : (s.dropWrite).trace = s.trace := rfl
@[simp] theorem State.dropWrite_replies (s : State) : (s.dropWrite).replies = s.replies := rfl

/-! ### `markExported` -/

@[simp] theorem State.markExported_params (l : Line) (v : Bool) (s : State) : (s.markExported l v).params = s.params := rfl
@[simp] theorem State.markExported_busy (l : Line) (v : Bool) (s : State) : (s.markExported l v).busy = s.busy := rfl
@[simp] theorem State.markExported_session (l : Line) (v : Bool) (s : State) : (s.markExported l v).session = s.session := rfl
@[simp] theorem State.markExported_frameValid (l : Line) (v : Bool) (s : State) : (s.markExported l v).frameValid = s.frameValid := rfl
@[simp] theorem State.markExported_hazard (l : Line) (v : Bool) (s : State) : (s.markExported l v).hazard = s.hazard := rfl
@[simp] theorem State.markExported_lastRefreshValid (l : Line) (v : Bool) (s : State) : (s.markExported l v).lastRefreshValid = s.lastRefreshValid := rfl
@[simp] theorem State.markExported_cleanupErr (l : Line) (v : Bool) (s : State) : (s.markExported l v).cleanupErr = s.cleanupErr := rfl
@[simp] theorem State.markExported_busOpen (l : Line) (v : Bool) (s : State) : (s.markExported l v).busOpen = s.busOpen := rfl
@[simp] theorem State.markExported_exported (l : Line) (v : Bool) (s : State) : (s.markExported l v).exported = s.exported.put l v := rfl
@[simp] theorem State.markExported_error (l : Line) (v : Bool) (s : State) : (s.markExported l v).error = s.error := rfl
@[simp] theorem State.markExported_errX (l : Line) (v : Bool) (s : State) : (s.markExported l v).errX = s.errX := rfl
@[simp] theorem State.markExported_errY (l : Line) (v : Bool) (s : State) : (s.markExported l v).errY = s.errY := rfl
@[simp] theorem State.markExported_encWidth (l : Line) (v : Bool) (s : State) : (s.markExported l v).encWidth = s.encWidth := rfl
@[simp] theorem State.markExported_encHeight (l : Line) (v : Bool) (s : State) : (s.markExported l v).encHeight = s.encHeight := rfl
@[simp] theorem State.markExported_encColor (l : Line) (v : Bool) (s : State) : (s.markExported l v).encColor = s.encColor := rfl
@[simp] theorem State.markExported_frameWidth (l : Line) (v : Bool) (s : State) : (s.markExported l v).frameWidth = s.frameWidth := rfl
@[simp] theorem State.markExported_frameHeight (l : Line) (v : Bool) (s : State) : (s.markExported l v).frameHeight = s.frameHeight := rfl
@[simp] theorem State.markExported_frameColor (l : Line) (v : Bool) (s : State) : (s.markExported l v).frameColor = s.frameColor := rfl
@[simp] theorem State.markExported_panelWidth (l : Line) (v : Bool) (s : State) : (s.markExported l v).panelWidth = s.panelWidth := rfl
@[simp] theorem State.markExported_panelHeight (l : Line) (v : Bool) (s : State) : (s.markExported l v).panelHeight = s.panelHeight := rfl
@[simp] theorem State.markExported_tempCode (l : Line) (v : Bool) (s : State) : (s.markExported l v).tempCode = s.tempCode := rfl
@[simp] theorem State.markExported_busyTimeout (l : Line) (v : Bool) (s : State) : (s.markExported l v).busyTimeout = s.busyTimeout := rfl
@[simp] theorem State.markExported_lastRefresh (l : Line) (v : Bool) (s : State) : (s.markExported l v).lastRefresh = s.lastRefresh := rfl
@[simp] theorem State.markExported_primary (l : Line) (v : Bool) (s : State) : (s.markExported l v).primary = s.primary := rfl
@[simp] theorem State.markExported_secondary (l : Line) (v : Bool) (s : State) : (s.markExported l v).secondary = s.secondary := rfl
@[simp] theorem State.markExported_seq (l : Line) (v : Bool) (s : State) : (s.markExported l v).seq = s.seq := rfl
@[simp] theorem State.markExported_pixel (l : Line) (v : Bool) (s : State) : (s.markExported l v).pixel = s.pixel := rfl
@[simp] theorem State.markExported_wait (l : Line) (v : Bool) (s : State) : (s.markExported l v).wait = s.wait := rfl
@[simp] theorem State.markExported_now (l : Line) (v : Bool) (s : State) : (s.markExported l v).now = s.now := rfl
@[simp] theorem State.markExported_srcWidth (l : Line) (v : Bool) (s : State) : (s.markExported l v).srcWidth = s.srcWidth := rfl
@[simp] theorem State.markExported_srcHeight (l : Line) (v : Bool) (s : State) : (s.markExported l v).srcHeight = s.srcHeight := rfl
@[simp] theorem State.markExported_env (l : Line) (v : Bool) (s : State) : (s.markExported l v).env = s.env := rfl
@[simp] theorem State.markExported_draws (l : Line) (v : Bool) (s : State) : (s.markExported l v).draws = s.draws := rfl
@[simp] theorem State.markExported_forgotten (l : Line) (v : Bool) (s : State) : (s.markExported l v).forgotten = s.forgotten := rfl
@[simp] theorem State.markExported_inputs (l : Line) (v : Bool) (s : State) : (s.markExported l v).inputs = s.inputs := rfl
@[simp] theorem State.markExported_trace (l : Line) (v : Bool) (s : State) : (s.markExported l v).trace = s.trace := rfl
@[simp] theorem State.markExported_replies (l : Line) (v : Bool) (s : State) : (s.markExported l v).replies = s.replies := rfl

/-! ### `markBusOpen` -/

@[simp] theorem State.markBusOpen_params (v : Bool) (s : State) : (s.markBusOpen v).params = s.params := rfl
@[simp] theorem State.markBusOpen_busy (v : Bool) (s : State) : (s.markBusOpen v).busy = s.busy := rfl
@[simp] theorem State.markBusOpen_session (v : Bool) (s : State) : (s.markBusOpen v).session = s.session := rfl
@[simp] theorem State.markBusOpen_frameValid (v : Bool) (s : State) : (s.markBusOpen v).frameValid = s.frameValid := rfl
@[simp] theorem State.markBusOpen_hazard (v : Bool) (s : State) : (s.markBusOpen v).hazard = s.hazard := rfl
@[simp] theorem State.markBusOpen_lastRefreshValid (v : Bool) (s : State) : (s.markBusOpen v).lastRefreshValid = s.lastRefreshValid := rfl
@[simp] theorem State.markBusOpen_cleanupErr (v : Bool) (s : State) : (s.markBusOpen v).cleanupErr = s.cleanupErr := rfl
@[simp] theorem State.markBusOpen_busOpen (v : Bool) (s : State) : (s.markBusOpen v).busOpen = v := rfl
@[simp] theorem State.markBusOpen_exported (v : Bool) (s : State) : (s.markBusOpen v).exported = s.exported := rfl
@[simp] theorem State.markBusOpen_error (v : Bool) (s : State) : (s.markBusOpen v).error = s.error := rfl
@[simp] theorem State.markBusOpen_errX (v : Bool) (s : State) : (s.markBusOpen v).errX = s.errX := rfl
@[simp] theorem State.markBusOpen_errY (v : Bool) (s : State) : (s.markBusOpen v).errY = s.errY := rfl
@[simp] theorem State.markBusOpen_encWidth (v : Bool) (s : State) : (s.markBusOpen v).encWidth = s.encWidth := rfl
@[simp] theorem State.markBusOpen_encHeight (v : Bool) (s : State) : (s.markBusOpen v).encHeight = s.encHeight := rfl
@[simp] theorem State.markBusOpen_encColor (v : Bool) (s : State) : (s.markBusOpen v).encColor = s.encColor := rfl
@[simp] theorem State.markBusOpen_frameWidth (v : Bool) (s : State) : (s.markBusOpen v).frameWidth = s.frameWidth := rfl
@[simp] theorem State.markBusOpen_frameHeight (v : Bool) (s : State) : (s.markBusOpen v).frameHeight = s.frameHeight := rfl
@[simp] theorem State.markBusOpen_frameColor (v : Bool) (s : State) : (s.markBusOpen v).frameColor = s.frameColor := rfl
@[simp] theorem State.markBusOpen_panelWidth (v : Bool) (s : State) : (s.markBusOpen v).panelWidth = s.panelWidth := rfl
@[simp] theorem State.markBusOpen_panelHeight (v : Bool) (s : State) : (s.markBusOpen v).panelHeight = s.panelHeight := rfl
@[simp] theorem State.markBusOpen_tempCode (v : Bool) (s : State) : (s.markBusOpen v).tempCode = s.tempCode := rfl
@[simp] theorem State.markBusOpen_busyTimeout (v : Bool) (s : State) : (s.markBusOpen v).busyTimeout = s.busyTimeout := rfl
@[simp] theorem State.markBusOpen_lastRefresh (v : Bool) (s : State) : (s.markBusOpen v).lastRefresh = s.lastRefresh := rfl
@[simp] theorem State.markBusOpen_primary (v : Bool) (s : State) : (s.markBusOpen v).primary = s.primary := rfl
@[simp] theorem State.markBusOpen_secondary (v : Bool) (s : State) : (s.markBusOpen v).secondary = s.secondary := rfl
@[simp] theorem State.markBusOpen_seq (v : Bool) (s : State) : (s.markBusOpen v).seq = s.seq := rfl
@[simp] theorem State.markBusOpen_pixel (v : Bool) (s : State) : (s.markBusOpen v).pixel = s.pixel := rfl
@[simp] theorem State.markBusOpen_wait (v : Bool) (s : State) : (s.markBusOpen v).wait = s.wait := rfl
@[simp] theorem State.markBusOpen_now (v : Bool) (s : State) : (s.markBusOpen v).now = s.now := rfl
@[simp] theorem State.markBusOpen_srcWidth (v : Bool) (s : State) : (s.markBusOpen v).srcWidth = s.srcWidth := rfl
@[simp] theorem State.markBusOpen_srcHeight (v : Bool) (s : State) : (s.markBusOpen v).srcHeight = s.srcHeight := rfl
@[simp] theorem State.markBusOpen_env (v : Bool) (s : State) : (s.markBusOpen v).env = s.env := rfl
@[simp] theorem State.markBusOpen_draws (v : Bool) (s : State) : (s.markBusOpen v).draws = s.draws := rfl
@[simp] theorem State.markBusOpen_forgotten (v : Bool) (s : State) : (s.markBusOpen v).forgotten = s.forgotten := rfl
@[simp] theorem State.markBusOpen_inputs (v : Bool) (s : State) : (s.markBusOpen v).inputs = s.inputs := rfl
@[simp] theorem State.markBusOpen_trace (v : Bool) (s : State) : (s.markBusOpen v).trace = s.trace := rfl
@[simp] theorem State.markBusOpen_replies (v : Bool) (s : State) : (s.markBusOpen v).replies = s.replies := rfl

/-! ### `stampRefresh` -/

@[simp] theorem State.stampRefresh_params (s : State) : (s.stampRefresh).params = s.params := rfl
@[simp] theorem State.stampRefresh_busy (s : State) : (s.stampRefresh).busy = s.busy := rfl
@[simp] theorem State.stampRefresh_session (s : State) : (s.stampRefresh).session = s.session := rfl
@[simp] theorem State.stampRefresh_frameValid (s : State) : (s.stampRefresh).frameValid = s.frameValid := rfl
@[simp] theorem State.stampRefresh_hazard (s : State) : (s.stampRefresh).hazard = s.hazard := rfl
@[simp] theorem State.stampRefresh_lastRefreshValid (s : State) : (s.stampRefresh).lastRefreshValid = true := rfl
@[simp] theorem State.stampRefresh_cleanupErr (s : State) : (s.stampRefresh).cleanupErr = s.cleanupErr := rfl
@[simp] theorem State.stampRefresh_busOpen (s : State) : (s.stampRefresh).busOpen = s.busOpen := rfl
@[simp] theorem State.stampRefresh_exported (s : State) : (s.stampRefresh).exported = s.exported := rfl
@[simp] theorem State.stampRefresh_error (s : State) : (s.stampRefresh).error = s.error := rfl
@[simp] theorem State.stampRefresh_errX (s : State) : (s.stampRefresh).errX = s.errX := rfl
@[simp] theorem State.stampRefresh_errY (s : State) : (s.stampRefresh).errY = s.errY := rfl
@[simp] theorem State.stampRefresh_encWidth (s : State) : (s.stampRefresh).encWidth = s.encWidth := rfl
@[simp] theorem State.stampRefresh_encHeight (s : State) : (s.stampRefresh).encHeight = s.encHeight := rfl
@[simp] theorem State.stampRefresh_encColor (s : State) : (s.stampRefresh).encColor = s.encColor := rfl
@[simp] theorem State.stampRefresh_frameWidth (s : State) : (s.stampRefresh).frameWidth = s.frameWidth := rfl
@[simp] theorem State.stampRefresh_frameHeight (s : State) : (s.stampRefresh).frameHeight = s.frameHeight := rfl
@[simp] theorem State.stampRefresh_frameColor (s : State) : (s.stampRefresh).frameColor = s.frameColor := rfl
@[simp] theorem State.stampRefresh_panelWidth (s : State) : (s.stampRefresh).panelWidth = s.panelWidth := rfl
@[simp] theorem State.stampRefresh_panelHeight (s : State) : (s.stampRefresh).panelHeight = s.panelHeight := rfl
@[simp] theorem State.stampRefresh_tempCode (s : State) : (s.stampRefresh).tempCode = s.tempCode := rfl
@[simp] theorem State.stampRefresh_busyTimeout (s : State) : (s.stampRefresh).busyTimeout = s.busyTimeout := rfl
@[simp] theorem State.stampRefresh_lastRefresh (s : State) : (s.stampRefresh).lastRefresh = s.now64 := rfl
@[simp] theorem State.stampRefresh_primary (s : State) : (s.stampRefresh).primary = s.primary := rfl
@[simp] theorem State.stampRefresh_secondary (s : State) : (s.stampRefresh).secondary = s.secondary := rfl
@[simp] theorem State.stampRefresh_seq (s : State) : (s.stampRefresh).seq = s.seq := rfl
@[simp] theorem State.stampRefresh_pixel (s : State) : (s.stampRefresh).pixel = s.pixel := rfl
@[simp] theorem State.stampRefresh_wait (s : State) : (s.stampRefresh).wait = s.wait := rfl
@[simp] theorem State.stampRefresh_now (s : State) : (s.stampRefresh).now = s.now := rfl
@[simp] theorem State.stampRefresh_srcWidth (s : State) : (s.stampRefresh).srcWidth = s.srcWidth := rfl
@[simp] theorem State.stampRefresh_srcHeight (s : State) : (s.stampRefresh).srcHeight = s.srcHeight := rfl
@[simp] theorem State.stampRefresh_env (s : State) : (s.stampRefresh).env = s.env := rfl
@[simp] theorem State.stampRefresh_draws (s : State) : (s.stampRefresh).draws = s.draws := rfl
@[simp] theorem State.stampRefresh_forgotten (s : State) : (s.stampRefresh).forgotten = s.forgotten := rfl
@[simp] theorem State.stampRefresh_inputs (s : State) : (s.stampRefresh).inputs = s.inputs := rfl
@[simp] theorem State.stampRefresh_trace (s : State) : (s.stampRefresh).trace = s.trace := rfl
@[simp] theorem State.stampRefresh_replies (s : State) : (s.stampRefresh).replies = s.replies := rfl

/-! ### `encodeStep` -/

@[simp] theorem State.encodeStep_params (j : Nat) (s : State) : (s.encodeStep j).params = s.params := rfl
@[simp] theorem State.encodeStep_busy (j : Nat) (s : State) : (s.encodeStep j).busy = s.busy := rfl
@[simp] theorem State.encodeStep_session (j : Nat) (s : State) : (s.encodeStep j).session = s.session := rfl
@[simp] theorem State.encodeStep_frameValid (j : Nat) (s : State) : (s.encodeStep j).frameValid = s.frameValid := rfl
@[simp] theorem State.encodeStep_hazard (j : Nat) (s : State) : (s.encodeStep j).hazard = s.hazard := rfl
@[simp] theorem State.encodeStep_lastRefreshValid (j : Nat) (s : State) : (s.encodeStep j).lastRefreshValid = s.lastRefreshValid := rfl
@[simp] theorem State.encodeStep_cleanupErr (j : Nat) (s : State) : (s.encodeStep j).cleanupErr = s.cleanupErr := rfl
@[simp] theorem State.encodeStep_busOpen (j : Nat) (s : State) : (s.encodeStep j).busOpen = s.busOpen := rfl
@[simp] theorem State.encodeStep_exported (j : Nat) (s : State) : (s.encodeStep j).exported = s.exported := rfl
@[simp] theorem State.encodeStep_error (j : Nat) (s : State) : (s.encodeStep j).error = s.error := rfl
@[simp] theorem State.encodeStep_errX (j : Nat) (s : State) : (s.encodeStep j).errX = s.errX := rfl
@[simp] theorem State.encodeStep_errY (j : Nat) (s : State) : (s.encodeStep j).errY = s.errY := rfl
@[simp] theorem State.encodeStep_encWidth (j : Nat) (s : State) : (s.encodeStep j).encWidth = s.encWidth := rfl
@[simp] theorem State.encodeStep_encHeight (j : Nat) (s : State) : (s.encodeStep j).encHeight = s.encHeight := rfl
@[simp] theorem State.encodeStep_encColor (j : Nat) (s : State) : (s.encodeStep j).encColor = s.encColor := rfl
@[simp] theorem State.encodeStep_frameWidth (j : Nat) (s : State) : (s.encodeStep j).frameWidth = s.frameWidth := rfl
@[simp] theorem State.encodeStep_frameHeight (j : Nat) (s : State) : (s.encodeStep j).frameHeight = s.frameHeight := rfl
@[simp] theorem State.encodeStep_frameColor (j : Nat) (s : State) : (s.encodeStep j).frameColor = s.frameColor := rfl
@[simp] theorem State.encodeStep_panelWidth (j : Nat) (s : State) : (s.encodeStep j).panelWidth = s.panelWidth := rfl
@[simp] theorem State.encodeStep_panelHeight (j : Nat) (s : State) : (s.encodeStep j).panelHeight = s.panelHeight := rfl
@[simp] theorem State.encodeStep_tempCode (j : Nat) (s : State) : (s.encodeStep j).tempCode = s.tempCode := rfl
@[simp] theorem State.encodeStep_busyTimeout (j : Nat) (s : State) : (s.encodeStep j).busyTimeout = s.busyTimeout := rfl
@[simp] theorem State.encodeStep_lastRefresh (j : Nat) (s : State) : (s.encodeStep j).lastRefresh = s.lastRefresh := rfl
@[simp] theorem State.encodeStep_primary (j : Nat) (s : State) : (s.encodeStep j).primary = s.primary := rfl
@[simp] theorem State.encodeStep_secondary (j : Nat) (s : State) : (s.encodeStep j).secondary = s.secondary := rfl
@[simp] theorem State.encodeStep_seq (j : Nat) (s : State) : (s.encodeStep j).seq = { op := .encode, step := j, item := 0 } := rfl
@[simp] theorem State.encodeStep_pixel (j : Nat) (s : State) : (s.encodeStep j).pixel = s.pixel := rfl
@[simp] theorem State.encodeStep_wait (j : Nat) (s : State) : (s.encodeStep j).wait = s.wait := rfl
@[simp] theorem State.encodeStep_now (j : Nat) (s : State) : (s.encodeStep j).now = s.now := rfl
@[simp] theorem State.encodeStep_srcWidth (j : Nat) (s : State) : (s.encodeStep j).srcWidth = s.srcWidth := rfl
@[simp] theorem State.encodeStep_srcHeight (j : Nat) (s : State) : (s.encodeStep j).srcHeight = s.srcHeight := rfl
@[simp] theorem State.encodeStep_env (j : Nat) (s : State) : (s.encodeStep j).env = s.env := rfl
@[simp] theorem State.encodeStep_draws (j : Nat) (s : State) : (s.encodeStep j).draws = s.draws := rfl
@[simp] theorem State.encodeStep_forgotten (j : Nat) (s : State) : (s.encodeStep j).forgotten = s.forgotten := rfl
@[simp] theorem State.encodeStep_inputs (j : Nat) (s : State) : (s.encodeStep j).inputs = s.inputs := rfl
@[simp] theorem State.encodeStep_trace (j : Nat) (s : State) : (s.encodeStep j).trace = s.trace := rfl
@[simp] theorem State.encodeStep_replies (j : Nat) (s : State) : (s.encodeStep j).replies = s.replies := rfl

/-! ### `emit`: everything but the answers, the time and the trace stays -/

@[simp] theorem State.emit_params (e : Event) (s : State) : (s.emit e).params = s.params := by
  unfold State.emit State.takeAnswer; split <;> rfl
@[simp] theorem State.emit_busy (e : Event) (s : State) : (s.emit e).busy = s.busy := by
  unfold State.emit State.takeAnswer; split <;> rfl
@[simp] theorem State.emit_session (e : Event) (s : State) : (s.emit e).session = s.session := by
  unfold State.emit State.takeAnswer; split <;> rfl
@[simp] theorem State.emit_frameValid (e : Event) (s : State) : (s.emit e).frameValid = s.frameValid := by
  unfold State.emit State.takeAnswer; split <;> rfl
@[simp] theorem State.emit_hazard (e : Event) (s : State) : (s.emit e).hazard = s.hazard := by
  unfold State.emit State.takeAnswer; split <;> rfl
@[simp] theorem State.emit_lastRefreshValid (e : Event) (s : State) : (s.emit e).lastRefreshValid = s.lastRefreshValid := by
  unfold State.emit State.takeAnswer; split <;> rfl
@[simp] theorem State.emit_cleanupErr (e : Event) (s : State) : (s.emit e).cleanupErr = s.cleanupErr := by
  unfold State.emit State.takeAnswer; split <;> rfl
@[simp] theorem State.emit_busOpen (e : Event) (s : State) : (s.emit e).busOpen = s.busOpen := by
  unfold State.emit State.takeAnswer; split <;> rfl
@[simp] theorem State.emit_exported (e : Event) (s : State) : (s.emit e).exported = s.exported := by
  unfold State.emit State.takeAnswer; split <;> rfl
@[simp] theorem State.emit_error (e : Event) (s : State) : (s.emit e).error = s.error := by
  unfold State.emit State.takeAnswer; split <;> rfl
@[simp] theorem State.emit_errX (e : Event) (s : State) : (s.emit e).errX = s.errX := by
  unfold State.emit State.takeAnswer; split <;> rfl
@[simp] theorem State.emit_errY (e : Event) (s : State) : (s.emit e).errY = s.errY := by
  unfold State.emit State.takeAnswer; split <;> rfl
@[simp] theorem State.emit_encWidth (e : Event) (s : State) : (s.emit e).encWidth = s.encWidth := by
  unfold State.emit State.takeAnswer; split <;> rfl
@[simp] theorem State.emit_encHeight (e : Event) (s : State) : (s.emit e).encHeight = s.encHeight := by
  unfold State.emit State.takeAnswer; split <;> rfl
@[simp] theorem State.emit_encColor (e : Event) (s : State) : (s.emit e).encColor = s.encColor := by
  unfold State.emit State.takeAnswer; split <;> rfl
@[simp] theorem State.emit_frameWidth (e : Event) (s : State) : (s.emit e).frameWidth = s.frameWidth := by
  unfold State.emit State.takeAnswer; split <;> rfl
@[simp] theorem State.emit_frameHeight (e : Event) (s : State) : (s.emit e).frameHeight = s.frameHeight := by
  unfold State.emit State.takeAnswer; split <;> rfl
@[simp] theorem State.emit_frameColor (e : Event) (s : State) : (s.emit e).frameColor = s.frameColor := by
  unfold State.emit State.takeAnswer; split <;> rfl
@[simp] theorem State.emit_panelWidth (e : Event) (s : State) : (s.emit e).panelWidth = s.panelWidth := by
  unfold State.emit State.takeAnswer; split <;> rfl
@[simp] theorem State.emit_panelHeight (e : Event) (s : State) : (s.emit e).panelHeight = s.panelHeight := by
  unfold State.emit State.takeAnswer; split <;> rfl
@[simp] theorem State.emit_tempCode (e : Event) (s : State) : (s.emit e).tempCode = s.tempCode := by
  unfold State.emit State.takeAnswer; split <;> rfl
@[simp] theorem State.emit_busyTimeout (e : Event) (s : State) : (s.emit e).busyTimeout = s.busyTimeout := by
  unfold State.emit State.takeAnswer; split <;> rfl
@[simp] theorem State.emit_lastRefresh (e : Event) (s : State) : (s.emit e).lastRefresh = s.lastRefresh := by
  unfold State.emit State.takeAnswer; split <;> rfl
@[simp] theorem State.emit_primary (e : Event) (s : State) : (s.emit e).primary = s.primary := by
  unfold State.emit State.takeAnswer; split <;> rfl
@[simp] theorem State.emit_secondary (e : Event) (s : State) : (s.emit e).secondary = s.secondary := by
  unfold State.emit State.takeAnswer; split <;> rfl
@[simp] theorem State.emit_seq (e : Event) (s : State) : (s.emit e).seq = s.seq := by
  unfold State.emit State.takeAnswer; split <;> rfl
@[simp] theorem State.emit_pixel (e : Event) (s : State) : (s.emit e).pixel = s.pixel := by
  unfold State.emit State.takeAnswer; split <;> rfl
@[simp] theorem State.emit_wait (e : Event) (s : State) : (s.emit e).wait = s.wait := by
  unfold State.emit State.takeAnswer; split <;> rfl
@[simp] theorem State.emit_now (e : Event) (s : State) : (s.emit e).now = s.now + e.minMs + s.answer.ms := by
  unfold State.emit State.takeAnswer; split <;> rfl
@[simp] theorem State.emit_srcWidth (e : Event) (s : State) : (s.emit e).srcWidth = s.srcWidth := by
  unfold State.emit State.takeAnswer; split <;> rfl
@[simp] theorem State.emit_srcHeight (e : Event) (s : State) : (s.emit e).srcHeight = s.srcHeight := by
  unfold State.emit State.takeAnswer; split <;> rfl
@[simp] theorem State.emit_forgotten (e : Event) (s : State) : (s.emit e).forgotten = s.forgotten := by
  unfold State.emit State.takeAnswer; split <;> rfl
@[simp] theorem State.emit_inputs (e : Event) (s : State) : (s.emit e).inputs = s.inputs := by
  unfold State.emit State.takeAnswer; split <;> rfl
@[simp] theorem State.emit_trace (e : Event) (s : State) : (s.emit e).trace = s.trace ++ [{ event := e, outcome := s.outcomeOf e s.answer, time := s.now, pos := s.seq }] := by
  unfold State.emit State.takeAnswer; split <;> rfl
@[simp] theorem State.emit_replies (e : Event) (s : State) : (s.emit e).replies = s.replies := by
  unfold State.emit State.takeAnswer; split <;> rfl

/-! ### The control operations change BUSY, SESSION, ERROR, CLEANUP_ERR and the cursor alone -/

@[simp] theorem State.raise_params (e : ErrorCode) (p : Phase) (j k : Nat) (s : State) : (s.raise e p j k).params = s.params := by
  unfold State.raise; split <;> rfl
@[simp] theorem State.raise_frameValid (e : ErrorCode) (p : Phase) (j k : Nat) (s : State) : (s.raise e p j k).frameValid = s.frameValid := by
  unfold State.raise; split <;> rfl
@[simp] theorem State.raise_hazard (e : ErrorCode) (p : Phase) (j k : Nat) (s : State) : (s.raise e p j k).hazard = s.hazard := by
  unfold State.raise; split <;> rfl
@[simp] theorem State.raise_lastRefreshValid (e : ErrorCode) (p : Phase) (j k : Nat) (s : State) : (s.raise e p j k).lastRefreshValid = s.lastRefreshValid := by
  unfold State.raise; split <;> rfl
@[simp] theorem State.raise_busOpen (e : ErrorCode) (p : Phase) (j k : Nat) (s : State) : (s.raise e p j k).busOpen = s.busOpen := by
  unfold State.raise; split <;> rfl
@[simp] theorem State.raise_exported (e : ErrorCode) (p : Phase) (j k : Nat) (s : State) : (s.raise e p j k).exported = s.exported := by
  unfold State.raise; split <;> rfl
@[simp] theorem State.raise_errX (e : ErrorCode) (p : Phase) (j k : Nat) (s : State) : (s.raise e p j k).errX = s.errX := by
  unfold State.raise; split <;> rfl
@[simp] theorem State.raise_errY (e : ErrorCode) (p : Phase) (j k : Nat) (s : State) : (s.raise e p j k).errY = s.errY := by
  unfold State.raise; split <;> rfl
@[simp] theorem State.raise_encWidth (e : ErrorCode) (p : Phase) (j k : Nat) (s : State) : (s.raise e p j k).encWidth = s.encWidth := by
  unfold State.raise; split <;> rfl
@[simp] theorem State.raise_encHeight (e : ErrorCode) (p : Phase) (j k : Nat) (s : State) : (s.raise e p j k).encHeight = s.encHeight := by
  unfold State.raise; split <;> rfl
@[simp] theorem State.raise_encColor (e : ErrorCode) (p : Phase) (j k : Nat) (s : State) : (s.raise e p j k).encColor = s.encColor := by
  unfold State.raise; split <;> rfl
@[simp] theorem State.raise_frameWidth (e : ErrorCode) (p : Phase) (j k : Nat) (s : State) : (s.raise e p j k).frameWidth = s.frameWidth := by
  unfold State.raise; split <;> rfl
@[simp] theorem State.raise_frameHeight (e : ErrorCode) (p : Phase) (j k : Nat) (s : State) : (s.raise e p j k).frameHeight = s.frameHeight := by
  unfold State.raise; split <;> rfl
@[simp] theorem State.raise_frameColor (e : ErrorCode) (p : Phase) (j k : Nat) (s : State) : (s.raise e p j k).frameColor = s.frameColor := by
  unfold State.raise; split <;> rfl
@[simp] theorem State.raise_panelWidth (e : ErrorCode) (p : Phase) (j k : Nat) (s : State) : (s.raise e p j k).panelWidth = s.panelWidth := by
  unfold State.raise; split <;> rfl
@[simp] theorem State.raise_panelHeight (e : ErrorCode) (p : Phase) (j k : Nat) (s : State) : (s.raise e p j k).panelHeight = s.panelHeight := by
  unfold State.raise; split <;> rfl
@[simp] theorem State.raise_tempCode (e : ErrorCode) (p : Phase) (j k : Nat) (s : State) : (s.raise e p j k).tempCode = s.tempCode := by
  unfold State.raise; split <;> rfl
@[simp] theorem State.raise_busyTimeout (e : ErrorCode) (p : Phase) (j k : Nat) (s : State) : (s.raise e p j k).busyTimeout = s.busyTimeout := by
  unfold State.raise; split <;> rfl
@[simp] theorem State.raise_lastRefresh (e : ErrorCode) (p : Phase) (j k : Nat) (s : State) : (s.raise e p j k).lastRefresh = s.lastRefresh := by
  unfold State.raise; split <;> rfl
@[simp] theorem State.raise_primary (e : ErrorCode) (p : Phase) (j k : Nat) (s : State) : (s.raise e p j k).primary = s.primary := by
  unfold State.raise; split <;> rfl
@[simp] theorem State.raise_secondary (e : ErrorCode) (p : Phase) (j k : Nat) (s : State) : (s.raise e p j k).secondary = s.secondary := by
  unfold State.raise; split <;> rfl
@[simp] theorem State.raise_pixel (e : ErrorCode) (p : Phase) (j k : Nat) (s : State) : (s.raise e p j k).pixel = s.pixel := by
  unfold State.raise; split <;> rfl
@[simp] theorem State.raise_now (e : ErrorCode) (p : Phase) (j k : Nat) (s : State) : (s.raise e p j k).now = s.now := by
  unfold State.raise; split <;> rfl
@[simp] theorem State.raise_srcWidth (e : ErrorCode) (p : Phase) (j k : Nat) (s : State) : (s.raise e p j k).srcWidth = s.srcWidth := by
  unfold State.raise; split <;> rfl
@[simp] theorem State.raise_srcHeight (e : ErrorCode) (p : Phase) (j k : Nat) (s : State) : (s.raise e p j k).srcHeight = s.srcHeight := by
  unfold State.raise; split <;> rfl
@[simp] theorem State.raise_env (e : ErrorCode) (p : Phase) (j k : Nat) (s : State) : (s.raise e p j k).env = s.env := by
  unfold State.raise; split <;> rfl
@[simp] theorem State.raise_draws (e : ErrorCode) (p : Phase) (j k : Nat) (s : State) : (s.raise e p j k).draws = s.draws := by
  unfold State.raise; split <;> rfl
@[simp] theorem State.raise_forgotten (e : ErrorCode) (p : Phase) (j k : Nat) (s : State) : (s.raise e p j k).forgotten = s.forgotten := by
  unfold State.raise; split <;> rfl
@[simp] theorem State.raise_inputs (e : ErrorCode) (p : Phase) (j k : Nat) (s : State) : (s.raise e p j k).inputs = s.inputs := by
  unfold State.raise; split <;> rfl
@[simp] theorem State.raise_trace (e : ErrorCode) (p : Phase) (j k : Nat) (s : State) : (s.raise e p j k).trace = s.trace := by
  unfold State.raise; split <;> rfl
@[simp] theorem State.raise_replies (e : ErrorCode) (p : Phase) (j k : Nat) (s : State) : (s.raise e p j k).replies = s.replies := by
  unfold State.raise; split <;> rfl
@[simp] theorem State.raiseHere_params (e : ErrorCode) (s : State) : (s.raiseHere e).params = s.params := by
  unfold State.raiseHere; simp
@[simp] theorem State.raiseHere_frameValid (e : ErrorCode) (s : State) : (s.raiseHere e).frameValid = s.frameValid := by
  unfold State.raiseHere; simp
@[simp] theorem State.raiseHere_hazard (e : ErrorCode) (s : State) : (s.raiseHere e).hazard = s.hazard := by
  unfold State.raiseHere; simp
@[simp] theorem State.raiseHere_lastRefreshValid (e : ErrorCode) (s : State) : (s.raiseHere e).lastRefreshValid = s.lastRefreshValid := by
  unfold State.raiseHere; simp
@[simp] theorem State.raiseHere_busOpen (e : ErrorCode) (s : State) : (s.raiseHere e).busOpen = s.busOpen := by
  unfold State.raiseHere; simp
@[simp] theorem State.raiseHere_exported (e : ErrorCode) (s : State) : (s.raiseHere e).exported = s.exported := by
  unfold State.raiseHere; simp
@[simp] theorem State.raiseHere_errX (e : ErrorCode) (s : State) : (s.raiseHere e).errX = s.errX := by
  unfold State.raiseHere; simp
@[simp] theorem State.raiseHere_errY (e : ErrorCode) (s : State) : (s.raiseHere e).errY = s.errY := by
  unfold State.raiseHere; simp
@[simp] theorem State.raiseHere_encWidth (e : ErrorCode) (s : State) : (s.raiseHere e).encWidth = s.encWidth := by
  unfold State.raiseHere; simp
@[simp] theorem State.raiseHere_encHeight (e : ErrorCode) (s : State) : (s.raiseHere e).encHeight = s.encHeight := by
  unfold State.raiseHere; simp
@[simp] theorem State.raiseHere_encColor (e : ErrorCode) (s : State) : (s.raiseHere e).encColor = s.encColor := by
  unfold State.raiseHere; simp
@[simp] theorem State.raiseHere_frameWidth (e : ErrorCode) (s : State) : (s.raiseHere e).frameWidth = s.frameWidth := by
  unfold State.raiseHere; simp
@[simp] theorem State.raiseHere_frameHeight (e : ErrorCode) (s : State) : (s.raiseHere e).frameHeight = s.frameHeight := by
  unfold State.raiseHere; simp
@[simp] theorem State.raiseHere_frameColor (e : ErrorCode) (s : State) : (s.raiseHere e).frameColor = s.frameColor := by
  unfold State.raiseHere; simp
@[simp] theorem State.raiseHere_panelWidth (e : ErrorCode) (s : State) : (s.raiseHere e).panelWidth = s.panelWidth := by
  unfold State.raiseHere; simp
@[simp] theorem State.raiseHere_panelHeight (e : ErrorCode) (s : State) : (s.raiseHere e).panelHeight = s.panelHeight := by
  unfold State.raiseHere; simp
@[simp] theorem State.raiseHere_tempCode (e : ErrorCode) (s : State) : (s.raiseHere e).tempCode = s.tempCode := by
  unfold State.raiseHere; simp
@[simp] theorem State.raiseHere_busyTimeout (e : ErrorCode) (s : State) : (s.raiseHere e).busyTimeout = s.busyTimeout := by
  unfold State.raiseHere; simp
@[simp] theorem State.raiseHere_lastRefresh (e : ErrorCode) (s : State) : (s.raiseHere e).lastRefresh = s.lastRefresh := by
  unfold State.raiseHere; simp
@[simp] theorem State.raiseHere_primary (e : ErrorCode) (s : State) : (s.raiseHere e).primary = s.primary := by
  unfold State.raiseHere; simp
@[simp] theorem State.raiseHere_secondary (e : ErrorCode) (s : State) : (s.raiseHere e).secondary = s.secondary := by
  unfold State.raiseHere; simp
@[simp] theorem State.raiseHere_pixel (e : ErrorCode) (s : State) : (s.raiseHere e).pixel = s.pixel := by
  unfold State.raiseHere; simp
@[simp] theorem State.raiseHere_now (e : ErrorCode) (s : State) : (s.raiseHere e).now = s.now := by
  unfold State.raiseHere; simp
@[simp] theorem State.raiseHere_srcWidth (e : ErrorCode) (s : State) : (s.raiseHere e).srcWidth = s.srcWidth := by
  unfold State.raiseHere; simp
@[simp] theorem State.raiseHere_srcHeight (e : ErrorCode) (s : State) : (s.raiseHere e).srcHeight = s.srcHeight := by
  unfold State.raiseHere; simp
@[simp] theorem State.raiseHere_env (e : ErrorCode) (s : State) : (s.raiseHere e).env = s.env := by
  unfold State.raiseHere; simp
@[simp] theorem State.raiseHere_draws (e : ErrorCode) (s : State) : (s.raiseHere e).draws = s.draws := by
  unfold State.raiseHere; simp
@[simp] theorem State.raiseHere_forgotten (e : ErrorCode) (s : State) : (s.raiseHere e).forgotten = s.forgotten := by
  unfold State.raiseHere; simp
@[simp] theorem State.raiseHere_inputs (e : ErrorCode) (s : State) : (s.raiseHere e).inputs = s.inputs := by
  unfold State.raiseHere; simp
@[simp] theorem State.raiseHere_trace (e : ErrorCode) (s : State) : (s.raiseHere e).trace = s.trace := by
  unfold State.raiseHere; simp
@[simp] theorem State.raiseHere_replies (e : ErrorCode) (s : State) : (s.raiseHere e).replies = s.replies := by
  unfold State.raiseHere; simp
@[simp] theorem State.note_params (e : ErrorCode) (s : State) : (s.note e).params = s.params := by
  unfold State.note; split <;> rfl
@[simp] theorem State.note_frameValid (e : ErrorCode) (s : State) : (s.note e).frameValid = s.frameValid := by
  unfold State.note; split <;> rfl
@[simp] theorem State.note_hazard (e : ErrorCode) (s : State) : (s.note e).hazard = s.hazard := by
  unfold State.note; split <;> rfl
@[simp] theorem State.note_lastRefreshValid (e : ErrorCode) (s : State) : (s.note e).lastRefreshValid = s.lastRefreshValid := by
  unfold State.note; split <;> rfl
@[simp] theorem State.note_busOpen (e : ErrorCode) (s : State) : (s.note e).busOpen = s.busOpen := by
  unfold State.note; split <;> rfl
@[simp] theorem State.note_exported (e : ErrorCode) (s : State) : (s.note e).exported = s.exported := by
  unfold State.note; split <;> rfl
@[simp] theorem State.note_errX (e : ErrorCode) (s : State) : (s.note e).errX = s.errX := by
  unfold State.note; split <;> rfl
@[simp] theorem State.note_errY (e : ErrorCode) (s : State) : (s.note e).errY = s.errY := by
  unfold State.note; split <;> rfl
@[simp] theorem State.note_encWidth (e : ErrorCode) (s : State) : (s.note e).encWidth = s.encWidth := by
  unfold State.note; split <;> rfl
@[simp] theorem State.note_encHeight (e : ErrorCode) (s : State) : (s.note e).encHeight = s.encHeight := by
  unfold State.note; split <;> rfl
@[simp] theorem State.note_encColor (e : ErrorCode) (s : State) : (s.note e).encColor = s.encColor := by
  unfold State.note; split <;> rfl
@[simp] theorem State.note_frameWidth (e : ErrorCode) (s : State) : (s.note e).frameWidth = s.frameWidth := by
  unfold State.note; split <;> rfl
@[simp] theorem State.note_frameHeight (e : ErrorCode) (s : State) : (s.note e).frameHeight = s.frameHeight := by
  unfold State.note; split <;> rfl
@[simp] theorem State.note_frameColor (e : ErrorCode) (s : State) : (s.note e).frameColor = s.frameColor := by
  unfold State.note; split <;> rfl
@[simp] theorem State.note_panelWidth (e : ErrorCode) (s : State) : (s.note e).panelWidth = s.panelWidth := by
  unfold State.note; split <;> rfl
@[simp] theorem State.note_panelHeight (e : ErrorCode) (s : State) : (s.note e).panelHeight = s.panelHeight := by
  unfold State.note; split <;> rfl
@[simp] theorem State.note_tempCode (e : ErrorCode) (s : State) : (s.note e).tempCode = s.tempCode := by
  unfold State.note; split <;> rfl
@[simp] theorem State.note_busyTimeout (e : ErrorCode) (s : State) : (s.note e).busyTimeout = s.busyTimeout := by
  unfold State.note; split <;> rfl
@[simp] theorem State.note_lastRefresh (e : ErrorCode) (s : State) : (s.note e).lastRefresh = s.lastRefresh := by
  unfold State.note; split <;> rfl
@[simp] theorem State.note_primary (e : ErrorCode) (s : State) : (s.note e).primary = s.primary := by
  unfold State.note; split <;> rfl
@[simp] theorem State.note_secondary (e : ErrorCode) (s : State) : (s.note e).secondary = s.secondary := by
  unfold State.note; split <;> rfl
@[simp] theorem State.note_pixel (e : ErrorCode) (s : State) : (s.note e).pixel = s.pixel := by
  unfold State.note; split <;> rfl
@[simp] theorem State.note_now (e : ErrorCode) (s : State) : (s.note e).now = s.now := by
  unfold State.note; split <;> rfl
@[simp] theorem State.note_srcWidth (e : ErrorCode) (s : State) : (s.note e).srcWidth = s.srcWidth := by
  unfold State.note; split <;> rfl
@[simp] theorem State.note_srcHeight (e : ErrorCode) (s : State) : (s.note e).srcHeight = s.srcHeight := by
  unfold State.note; split <;> rfl
@[simp] theorem State.note_env (e : ErrorCode) (s : State) : (s.note e).env = s.env := by
  unfold State.note; split <;> rfl
@[simp] theorem State.note_draws (e : ErrorCode) (s : State) : (s.note e).draws = s.draws := by
  unfold State.note; split <;> rfl
@[simp] theorem State.note_forgotten (e : ErrorCode) (s : State) : (s.note e).forgotten = s.forgotten := by
  unfold State.note; split <;> rfl
@[simp] theorem State.note_inputs (e : ErrorCode) (s : State) : (s.note e).inputs = s.inputs := by
  unfold State.note; split <;> rfl
@[simp] theorem State.note_trace (e : ErrorCode) (s : State) : (s.note e).trace = s.trace := by
  unfold State.note; split <;> rfl
@[simp] theorem State.note_replies (e : ErrorCode) (s : State) : (s.note e).replies = s.replies := by
  unfold State.note; split <;> rfl
@[simp] theorem State.closing_params (s : State) : (s.closing).params = s.params := by
  unfold State.closing; split <;> rfl
@[simp] theorem State.closing_frameValid (s : State) : (s.closing).frameValid = s.frameValid := by
  unfold State.closing; split <;> rfl
@[simp] theorem State.closing_hazard (s : State) : (s.closing).hazard = s.hazard := by
  unfold State.closing; split <;> rfl
@[simp] theorem State.closing_lastRefreshValid (s : State) : (s.closing).lastRefreshValid = s.lastRefreshValid := by
  unfold State.closing; split <;> rfl
@[simp] theorem State.closing_busOpen (s : State) : (s.closing).busOpen = s.busOpen := by
  unfold State.closing; split <;> rfl
@[simp] theorem State.closing_exported (s : State) : (s.closing).exported = s.exported := by
  unfold State.closing; split <;> rfl
@[simp] theorem State.closing_errX (s : State) : (s.closing).errX = s.errX := by
  unfold State.closing; split <;> rfl
@[simp] theorem State.closing_errY (s : State) : (s.closing).errY = s.errY := by
  unfold State.closing; split <;> rfl
@[simp] theorem State.closing_encWidth (s : State) : (s.closing).encWidth = s.encWidth := by
  unfold State.closing; split <;> rfl
@[simp] theorem State.closing_encHeight (s : State) : (s.closing).encHeight = s.encHeight := by
  unfold State.closing; split <;> rfl
@[simp] theorem State.closing_encColor (s : State) : (s.closing).encColor = s.encColor := by
  unfold State.closing; split <;> rfl
@[simp] theorem State.closing_frameWidth (s : State) : (s.closing).frameWidth = s.frameWidth := by
  unfold State.closing; split <;> rfl
@[simp] theorem State.closing_frameHeight (s : State) : (s.closing).frameHeight = s.frameHeight := by
  unfold State.closing; split <;> rfl
@[simp] theorem State.closing_frameColor (s : State) : (s.closing).frameColor = s.frameColor := by
  unfold State.closing; split <;> rfl
@[simp] theorem State.closing_panelWidth (s : State) : (s.closing).panelWidth = s.panelWidth := by
  unfold State.closing; split <;> rfl
@[simp] theorem State.closing_panelHeight (s : State) : (s.closing).panelHeight = s.panelHeight := by
  unfold State.closing; split <;> rfl
@[simp] theorem State.closing_tempCode (s : State) : (s.closing).tempCode = s.tempCode := by
  unfold State.closing; split <;> rfl
@[simp] theorem State.closing_busyTimeout (s : State) : (s.closing).busyTimeout = s.busyTimeout := by
  unfold State.closing; split <;> rfl
@[simp] theorem State.closing_lastRefresh (s : State) : (s.closing).lastRefresh = s.lastRefresh := by
  unfold State.closing; split <;> rfl
@[simp] theorem State.closing_primary (s : State) : (s.closing).primary = s.primary := by
  unfold State.closing; split <;> rfl
@[simp] theorem State.closing_secondary (s : State) : (s.closing).secondary = s.secondary := by
  unfold State.closing; split <;> rfl
@[simp] theorem State.closing_pixel (s : State) : (s.closing).pixel = s.pixel := by
  unfold State.closing; split <;> rfl
@[simp] theorem State.closing_now (s : State) : (s.closing).now = s.now := by
  unfold State.closing; split <;> rfl
@[simp] theorem State.closing_srcWidth (s : State) : (s.closing).srcWidth = s.srcWidth := by
  unfold State.closing; split <;> rfl
@[simp] theorem State.closing_srcHeight (s : State) : (s.closing).srcHeight = s.srcHeight := by
  unfold State.closing; split <;> rfl
@[simp] theorem State.closing_env (s : State) : (s.closing).env = s.env := by
  unfold State.closing; split <;> rfl
@[simp] theorem State.closing_draws (s : State) : (s.closing).draws = s.draws := by
  unfold State.closing; split <;> rfl
@[simp] theorem State.closing_forgotten (s : State) : (s.closing).forgotten = s.forgotten := by
  unfold State.closing; split <;> rfl
@[simp] theorem State.closing_inputs (s : State) : (s.closing).inputs = s.inputs := by
  unfold State.closing; split <;> rfl
@[simp] theorem State.closing_trace (s : State) : (s.closing).trace = s.trace := by
  unfold State.closing; split <;> rfl
@[simp] theorem State.closing_replies (s : State) : (s.closing).replies = s.replies := by
  unfold State.closing; split <;> rfl
@[simp] theorem State.advance_params (s : State) : (s.advance).params = s.params := by
  unfold State.advance; split <;> simp
@[simp] theorem State.advance_frameValid (s : State) : (s.advance).frameValid = s.frameValid := by
  unfold State.advance; split <;> simp
@[simp] theorem State.advance_hazard (s : State) : (s.advance).hazard = s.hazard := by
  unfold State.advance; split <;> simp
@[simp] theorem State.advance_lastRefreshValid (s : State) : (s.advance).lastRefreshValid = s.lastRefreshValid := by
  unfold State.advance; split <;> simp
@[simp] theorem State.advance_busOpen (s : State) : (s.advance).busOpen = s.busOpen := by
  unfold State.advance; split <;> simp
@[simp] theorem State.advance_exported (s : State) : (s.advance).exported = s.exported := by
  unfold State.advance; split <;> simp
@[simp] theorem State.advance_errX (s : State) : (s.advance).errX = s.errX := by
  unfold State.advance; split <;> simp
@[simp] theorem State.advance_errY (s : State) : (s.advance).errY = s.errY := by
  unfold State.advance; split <;> simp
@[simp] theorem State.advance_encWidth (s : State) : (s.advance).encWidth = s.encWidth := by
  unfold State.advance; split <;> simp
@[simp] theorem State.advance_encHeight (s : State) : (s.advance).encHeight = s.encHeight := by
  unfold State.advance; split <;> simp
@[simp] theorem State.advance_encColor (s : State) : (s.advance).encColor = s.encColor := by
  unfold State.advance; split <;> simp
@[simp] theorem State.advance_frameWidth (s : State) : (s.advance).frameWidth = s.frameWidth := by
  unfold State.advance; split <;> simp
@[simp] theorem State.advance_frameHeight (s : State) : (s.advance).frameHeight = s.frameHeight := by
  unfold State.advance; split <;> simp
@[simp] theorem State.advance_frameColor (s : State) : (s.advance).frameColor = s.frameColor := by
  unfold State.advance; split <;> simp
@[simp] theorem State.advance_panelWidth (s : State) : (s.advance).panelWidth = s.panelWidth := by
  unfold State.advance; split <;> simp
@[simp] theorem State.advance_panelHeight (s : State) : (s.advance).panelHeight = s.panelHeight := by
  unfold State.advance; split <;> simp
@[simp] theorem State.advance_tempCode (s : State) : (s.advance).tempCode = s.tempCode := by
  unfold State.advance; split <;> simp
@[simp] theorem State.advance_busyTimeout (s : State) : (s.advance).busyTimeout = s.busyTimeout := by
  unfold State.advance; split <;> simp
@[simp] theorem State.advance_lastRefresh (s : State) : (s.advance).lastRefresh = s.lastRefresh := by
  unfold State.advance; split <;> simp
@[simp] theorem State.advance_primary (s : State) : (s.advance).primary = s.primary := by
  unfold State.advance; split <;> simp
@[simp] theorem State.advance_secondary (s : State) : (s.advance).secondary = s.secondary := by
  unfold State.advance; split <;> simp
@[simp] theorem State.advance_pixel (s : State) : (s.advance).pixel = s.pixel := by
  unfold State.advance; split <;> simp
@[simp] theorem State.advance_now (s : State) : (s.advance).now = s.now := by
  unfold State.advance; split <;> simp
@[simp] theorem State.advance_srcWidth (s : State) : (s.advance).srcWidth = s.srcWidth := by
  unfold State.advance; split <;> simp
@[simp] theorem State.advance_srcHeight (s : State) : (s.advance).srcHeight = s.srcHeight := by
  unfold State.advance; split <;> simp
@[simp] theorem State.advance_env (s : State) : (s.advance).env = s.env := by
  unfold State.advance; split <;> simp
@[simp] theorem State.advance_draws (s : State) : (s.advance).draws = s.draws := by
  unfold State.advance; split <;> simp
@[simp] theorem State.advance_forgotten (s : State) : (s.advance).forgotten = s.forgotten := by
  unfold State.advance; split <;> simp
@[simp] theorem State.advance_inputs (s : State) : (s.advance).inputs = s.inputs := by
  unfold State.advance; split <;> simp
@[simp] theorem State.advance_trace (s : State) : (s.advance).trace = s.trace := by
  unfold State.advance; split <;> simp
@[simp] theorem State.advance_replies (s : State) : (s.advance).replies = s.replies := by
  unfold State.advance; split <;> simp
@[simp] theorem State.advanceAfterFail_params (s : State) : (s.advanceAfterFail).params = s.params := by
  unfold State.advanceAfterFail; split <;> simp
@[simp] theorem State.advanceAfterFail_frameValid (s : State) : (s.advanceAfterFail).frameValid = s.frameValid := by
  unfold State.advanceAfterFail; split <;> simp
@[simp] theorem State.advanceAfterFail_hazard (s : State) : (s.advanceAfterFail).hazard = s.hazard := by
  unfold State.advanceAfterFail; split <;> simp
@[simp] theorem State.advanceAfterFail_lastRefreshValid (s : State) : (s.advanceAfterFail).lastRefreshValid = s.lastRefreshValid := by
  unfold State.advanceAfterFail; split <;> simp
@[simp] theorem State.advanceAfterFail_busOpen (s : State) : (s.advanceAfterFail).busOpen = s.busOpen := by
  unfold State.advanceAfterFail; split <;> simp
@[simp] theorem State.advanceAfterFail_exported (s : State) : (s.advanceAfterFail).exported = s.exported := by
  unfold State.advanceAfterFail; split <;> simp
@[simp] theorem State.advanceAfterFail_errX (s : State) : (s.advanceAfterFail).errX = s.errX := by
  unfold State.advanceAfterFail; split <;> simp
@[simp] theorem State.advanceAfterFail_errY (s : State) : (s.advanceAfterFail).errY = s.errY := by
  unfold State.advanceAfterFail; split <;> simp
@[simp] theorem State.advanceAfterFail_encWidth (s : State) : (s.advanceAfterFail).encWidth = s.encWidth := by
  unfold State.advanceAfterFail; split <;> simp
@[simp] theorem State.advanceAfterFail_encHeight (s : State) : (s.advanceAfterFail).encHeight = s.encHeight := by
  unfold State.advanceAfterFail; split <;> simp
@[simp] theorem State.advanceAfterFail_encColor (s : State) : (s.advanceAfterFail).encColor = s.encColor := by
  unfold State.advanceAfterFail; split <;> simp
@[simp] theorem State.advanceAfterFail_frameWidth (s : State) : (s.advanceAfterFail).frameWidth = s.frameWidth := by
  unfold State.advanceAfterFail; split <;> simp
@[simp] theorem State.advanceAfterFail_frameHeight (s : State) : (s.advanceAfterFail).frameHeight = s.frameHeight := by
  unfold State.advanceAfterFail; split <;> simp
@[simp] theorem State.advanceAfterFail_frameColor (s : State) : (s.advanceAfterFail).frameColor = s.frameColor := by
  unfold State.advanceAfterFail; split <;> simp
@[simp] theorem State.advanceAfterFail_panelWidth (s : State) : (s.advanceAfterFail).panelWidth = s.panelWidth := by
  unfold State.advanceAfterFail; split <;> simp
@[simp] theorem State.advanceAfterFail_panelHeight (s : State) : (s.advanceAfterFail).panelHeight = s.panelHeight := by
  unfold State.advanceAfterFail; split <;> simp
@[simp] theorem State.advanceAfterFail_tempCode (s : State) : (s.advanceAfterFail).tempCode = s.tempCode := by
  unfold State.advanceAfterFail; split <;> simp
@[simp] theorem State.advanceAfterFail_busyTimeout (s : State) : (s.advanceAfterFail).busyTimeout = s.busyTimeout := by
  unfold State.advanceAfterFail; split <;> simp
@[simp] theorem State.advanceAfterFail_lastRefresh (s : State) : (s.advanceAfterFail).lastRefresh = s.lastRefresh := by
  unfold State.advanceAfterFail; split <;> simp
@[simp] theorem State.advanceAfterFail_primary (s : State) : (s.advanceAfterFail).primary = s.primary := by
  unfold State.advanceAfterFail; split <;> simp
@[simp] theorem State.advanceAfterFail_secondary (s : State) : (s.advanceAfterFail).secondary = s.secondary := by
  unfold State.advanceAfterFail; split <;> simp
@[simp] theorem State.advanceAfterFail_pixel (s : State) : (s.advanceAfterFail).pixel = s.pixel := by
  unfold State.advanceAfterFail; split <;> simp
@[simp] theorem State.advanceAfterFail_now (s : State) : (s.advanceAfterFail).now = s.now := by
  unfold State.advanceAfterFail; split <;> simp
@[simp] theorem State.advanceAfterFail_srcWidth (s : State) : (s.advanceAfterFail).srcWidth = s.srcWidth := by
  unfold State.advanceAfterFail; split <;> simp
@[simp] theorem State.advanceAfterFail_srcHeight (s : State) : (s.advanceAfterFail).srcHeight = s.srcHeight := by
  unfold State.advanceAfterFail; split <;> simp
@[simp] theorem State.advanceAfterFail_env (s : State) : (s.advanceAfterFail).env = s.env := by
  unfold State.advanceAfterFail; split <;> simp
@[simp] theorem State.advanceAfterFail_draws (s : State) : (s.advanceAfterFail).draws = s.draws := by
  unfold State.advanceAfterFail; split <;> simp
@[simp] theorem State.advanceAfterFail_forgotten (s : State) : (s.advanceAfterFail).forgotten = s.forgotten := by
  unfold State.advanceAfterFail; split <;> simp
@[simp] theorem State.advanceAfterFail_inputs (s : State) : (s.advanceAfterFail).inputs = s.inputs := by
  unfold State.advanceAfterFail; split <;> simp
@[simp] theorem State.advanceAfterFail_trace (s : State) : (s.advanceAfterFail).trace = s.trace := by
  unfold State.advanceAfterFail; split <;> simp
@[simp] theorem State.advanceAfterFail_replies (s : State) : (s.advanceAfterFail).replies = s.replies := by
  unfold State.advanceAfterFail; split <;> simp
@[simp] theorem State.failItem_params (e : ErrorCode) (s : State) : (s.failItem e).params = s.params := by
  unfold State.failItem; split <;> simp
@[simp] theorem State.failItem_frameValid (e : ErrorCode) (s : State) : (s.failItem e).frameValid = s.frameValid := by
  unfold State.failItem; split <;> simp
@[simp] theorem State.failItem_hazard (e : ErrorCode) (s : State) : (s.failItem e).hazard = s.hazard := by
  unfold State.failItem; split <;> simp
@[simp] theorem State.failItem_lastRefreshValid (e : ErrorCode) (s : State) : (s.failItem e).lastRefreshValid = s.lastRefreshValid := by
  unfold State.failItem; split <;> simp
@[simp] theorem State.failItem_busOpen (e : ErrorCode) (s : State) : (s.failItem e).busOpen = s.busOpen := by
  unfold State.failItem; split <;> simp
@[simp] theorem State.failItem_exported (e : ErrorCode) (s : State) : (s.failItem e).exported = s.exported := by
  unfold State.failItem; split <;> simp
@[simp] theorem State.failItem_errX (e : ErrorCode) (s : State) : (s.failItem e).errX = s.errX := by
  unfold State.failItem; split <;> simp
@[simp] theorem State.failItem_errY (e : ErrorCode) (s : State) : (s.failItem e).errY = s.errY := by
  unfold State.failItem; split <;> simp
@[simp] theorem State.failItem_encWidth (e : ErrorCode) (s : State) : (s.failItem e).encWidth = s.encWidth := by
  unfold State.failItem; split <;> simp
@[simp] theorem State.failItem_encHeight (e : ErrorCode) (s : State) : (s.failItem e).encHeight = s.encHeight := by
  unfold State.failItem; split <;> simp
@[simp] theorem State.failItem_encColor (e : ErrorCode) (s : State) : (s.failItem e).encColor = s.encColor := by
  unfold State.failItem; split <;> simp
@[simp] theorem State.failItem_frameWidth (e : ErrorCode) (s : State) : (s.failItem e).frameWidth = s.frameWidth := by
  unfold State.failItem; split <;> simp
@[simp] theorem State.failItem_frameHeight (e : ErrorCode) (s : State) : (s.failItem e).frameHeight = s.frameHeight := by
  unfold State.failItem; split <;> simp
@[simp] theorem State.failItem_frameColor (e : ErrorCode) (s : State) : (s.failItem e).frameColor = s.frameColor := by
  unfold State.failItem; split <;> simp
@[simp] theorem State.failItem_panelWidth (e : ErrorCode) (s : State) : (s.failItem e).panelWidth = s.panelWidth := by
  unfold State.failItem; split <;> simp
@[simp] theorem State.failItem_panelHeight (e : ErrorCode) (s : State) : (s.failItem e).panelHeight = s.panelHeight := by
  unfold State.failItem; split <;> simp
@[simp] theorem State.failItem_tempCode (e : ErrorCode) (s : State) : (s.failItem e).tempCode = s.tempCode := by
  unfold State.failItem; split <;> simp
@[simp] theorem State.failItem_busyTimeout (e : ErrorCode) (s : State) : (s.failItem e).busyTimeout = s.busyTimeout := by
  unfold State.failItem; split <;> simp
@[simp] theorem State.failItem_lastRefresh (e : ErrorCode) (s : State) : (s.failItem e).lastRefresh = s.lastRefresh := by
  unfold State.failItem; split <;> simp
@[simp] theorem State.failItem_primary (e : ErrorCode) (s : State) : (s.failItem e).primary = s.primary := by
  unfold State.failItem; split <;> simp
@[simp] theorem State.failItem_secondary (e : ErrorCode) (s : State) : (s.failItem e).secondary = s.secondary := by
  unfold State.failItem; split <;> simp
@[simp] theorem State.failItem_pixel (e : ErrorCode) (s : State) : (s.failItem e).pixel = s.pixel := by
  unfold State.failItem; split <;> simp
@[simp] theorem State.failItem_now (e : ErrorCode) (s : State) : (s.failItem e).now = s.now := by
  unfold State.failItem; split <;> simp
@[simp] theorem State.failItem_srcWidth (e : ErrorCode) (s : State) : (s.failItem e).srcWidth = s.srcWidth := by
  unfold State.failItem; split <;> simp
@[simp] theorem State.failItem_srcHeight (e : ErrorCode) (s : State) : (s.failItem e).srcHeight = s.srcHeight := by
  unfold State.failItem; split <;> simp
@[simp] theorem State.failItem_env (e : ErrorCode) (s : State) : (s.failItem e).env = s.env := by
  unfold State.failItem; split <;> simp
@[simp] theorem State.failItem_draws (e : ErrorCode) (s : State) : (s.failItem e).draws = s.draws := by
  unfold State.failItem; split <;> simp
@[simp] theorem State.failItem_forgotten (e : ErrorCode) (s : State) : (s.failItem e).forgotten = s.forgotten := by
  unfold State.failItem; split <;> simp
@[simp] theorem State.failItem_inputs (e : ErrorCode) (s : State) : (s.failItem e).inputs = s.inputs := by
  unfold State.failItem; split <;> simp
@[simp] theorem State.failItem_trace (e : ErrorCode) (s : State) : (s.failItem e).trace = s.trace := by
  unfold State.failItem; split <;> simp
@[simp] theorem State.failItem_replies (e : ErrorCode) (s : State) : (s.failItem e).replies = s.replies := by
  unfold State.failItem; split <;> simp
@[simp] theorem State.require_params (ok : Bool) (e : ErrorCode) (s : State) : (s.require ok e).params = s.params := by
  unfold State.require; split <;> simp
@[simp] theorem State.require_frameValid (ok : Bool) (e : ErrorCode) (s : State) : (s.require ok e).frameValid = s.frameValid := by
  unfold State.require; split <;> simp
@[simp] theorem State.require_hazard (ok : Bool) (e : ErrorCode) (s : State) : (s.require ok e).hazard = s.hazard := by
  unfold State.require; split <;> simp
@[simp] theorem State.require_lastRefreshValid (ok : Bool) (e : ErrorCode) (s : State) : (s.require ok e).lastRefreshValid = s.lastRefreshValid := by
  unfold State.require; split <;> simp
@[simp] theorem State.require_busOpen (ok : Bool) (e : ErrorCode) (s : State) : (s.require ok e).busOpen = s.busOpen := by
  unfold State.require; split <;> simp
@[simp] theorem State.require_exported (ok : Bool) (e : ErrorCode) (s : State) : (s.require ok e).exported = s.exported := by
  unfold State.require; split <;> simp
@[simp] theorem State.require_errX (ok : Bool) (e : ErrorCode) (s : State) : (s.require ok e).errX = s.errX := by
  unfold State.require; split <;> simp
@[simp] theorem State.require_errY (ok : Bool) (e : ErrorCode) (s : State) : (s.require ok e).errY = s.errY := by
  unfold State.require; split <;> simp
@[simp] theorem State.require_encWidth (ok : Bool) (e : ErrorCode) (s : State) : (s.require ok e).encWidth = s.encWidth := by
  unfold State.require; split <;> simp
@[simp] theorem State.require_encHeight (ok : Bool) (e : ErrorCode) (s : State) : (s.require ok e).encHeight = s.encHeight := by
  unfold State.require; split <;> simp
@[simp] theorem State.require_encColor (ok : Bool) (e : ErrorCode) (s : State) : (s.require ok e).encColor = s.encColor := by
  unfold State.require; split <;> simp
@[simp] theorem State.require_frameWidth (ok : Bool) (e : ErrorCode) (s : State) : (s.require ok e).frameWidth = s.frameWidth := by
  unfold State.require; split <;> simp
@[simp] theorem State.require_frameHeight (ok : Bool) (e : ErrorCode) (s : State) : (s.require ok e).frameHeight = s.frameHeight := by
  unfold State.require; split <;> simp
@[simp] theorem State.require_frameColor (ok : Bool) (e : ErrorCode) (s : State) : (s.require ok e).frameColor = s.frameColor := by
  unfold State.require; split <;> simp
@[simp] theorem State.require_panelWidth (ok : Bool) (e : ErrorCode) (s : State) : (s.require ok e).panelWidth = s.panelWidth := by
  unfold State.require; split <;> simp
@[simp] theorem State.require_panelHeight (ok : Bool) (e : ErrorCode) (s : State) : (s.require ok e).panelHeight = s.panelHeight := by
  unfold State.require; split <;> simp
@[simp] theorem State.require_tempCode (ok : Bool) (e : ErrorCode) (s : State) : (s.require ok e).tempCode = s.tempCode := by
  unfold State.require; split <;> simp
@[simp] theorem State.require_busyTimeout (ok : Bool) (e : ErrorCode) (s : State) : (s.require ok e).busyTimeout = s.busyTimeout := by
  unfold State.require; split <;> simp
@[simp] theorem State.require_lastRefresh (ok : Bool) (e : ErrorCode) (s : State) : (s.require ok e).lastRefresh = s.lastRefresh := by
  unfold State.require; split <;> simp
@[simp] theorem State.require_primary (ok : Bool) (e : ErrorCode) (s : State) : (s.require ok e).primary = s.primary := by
  unfold State.require; split <;> simp
@[simp] theorem State.require_secondary (ok : Bool) (e : ErrorCode) (s : State) : (s.require ok e).secondary = s.secondary := by
  unfold State.require; split <;> simp
@[simp] theorem State.require_pixel (ok : Bool) (e : ErrorCode) (s : State) : (s.require ok e).pixel = s.pixel := by
  unfold State.require; split <;> simp
@[simp] theorem State.require_now (ok : Bool) (e : ErrorCode) (s : State) : (s.require ok e).now = s.now := by
  unfold State.require; split <;> simp
@[simp] theorem State.require_srcWidth (ok : Bool) (e : ErrorCode) (s : State) : (s.require ok e).srcWidth = s.srcWidth := by
  unfold State.require; split <;> simp
@[simp] theorem State.require_srcHeight (ok : Bool) (e : ErrorCode) (s : State) : (s.require ok e).srcHeight = s.srcHeight := by
  unfold State.require; split <;> simp
@[simp] theorem State.require_env (ok : Bool) (e : ErrorCode) (s : State) : (s.require ok e).env = s.env := by
  unfold State.require; split <;> simp
@[simp] theorem State.require_draws (ok : Bool) (e : ErrorCode) (s : State) : (s.require ok e).draws = s.draws := by
  unfold State.require; split <;> simp
@[simp] theorem State.require_forgotten (ok : Bool) (e : ErrorCode) (s : State) : (s.require ok e).forgotten = s.forgotten := by
  unfold State.require; split <;> simp
@[simp] theorem State.require_inputs (ok : Bool) (e : ErrorCode) (s : State) : (s.require ok e).inputs = s.inputs := by
  unfold State.require; split <;> simp
@[simp] theorem State.require_trace (ok : Bool) (e : ErrorCode) (s : State) : (s.require ok e).trace = s.trace := by
  unfold State.require; split <;> simp
@[simp] theorem State.require_replies (ok : Bool) (e : ErrorCode) (s : State) : (s.require ok e).replies = s.replies := by
  unfold State.require; split <;> simp

end Sys2Proof.Machine
end

