-- ==== Sys2Proof/Laws/Sequencer.lean ====
section
/-! SUPPORT. What the sequencer's shared operations can do, said once: the advance of the cursor, a failed item, an error, and the
side of the state each leaves alone. -/

namespace Sys2Proof.Machine

/-! ### The cursor's advance -/

/-- The next item is an item, of the same operation. -/
theorem nextItem_spec {c d : Cursor} (h : nextItem c = some d) : (actionAt d).isSome = true ∧ d.op = c.op := by
  unfold nextItem at h
  split at h
  · obtain rfl := Option.some.inj h; exact ⟨‹_›, rfl⟩
  · split at h
    · obtain rfl := Option.some.inj h; exact ⟨‹_›, rfl⟩
    · cases h

/-- An advance goes to the next item, or closes the operation and ends it. -/
theorem advance_cases (s : State) :
    (∃ c, nextItem s.seq = some c ∧ s.advance = { s with seq := c, wait := .idle }) ∨
      (nextItem s.seq = none ∧ s.advance = s.closing.endOperation) := by
  unfold State.advance
  split
  · exact .inl ⟨_, ‹_›, rfl⟩
  · exact .inr ⟨‹_›, rfl⟩

/-- An advance to a known item. -/
theorem advance_of_next {s : State} {c : Cursor} (h : nextItem s.seq = some c) :
    s.advance = { s with seq := c, wait := .idle } := by
  unfold State.advance; rw [h]

/-- An advance past the last item. -/
theorem advance_of_last {s : State} (h : nextItem s.seq = none) : s.advance = s.closing.endOperation := by
  unfold State.advance; rw [h]

/-- An error of class "hardware" in the INIT or TRANSFER phase starts CLEANUP; every other ends the operation (R122). -/
theorem raise_cases (s : State) (e : ErrorCode) (p : Phase) (j k : Nat) :
    (e.isHardware = true ∧ (p = .init ∨ p = .transfer) ∧ s.raise e p j k = (s.setError e p j k).startCleanup) ∨
      s.raise e p j k = (s.setError e p j k).endOperation := by
  unfold State.raise
  split
  · left
    simp_all
  · exact .inr rfl

/-! ### What stays -/

/-- The host's side of a state is a function of these fields. -/
theorem hostSide_congr {s t : State} (h : t.params = s.params ∧ t.encWidth = s.encWidth ∧ t.encHeight = s.encHeight ∧
    t.encColor = s.encColor ∧ t.panelWidth = s.panelWidth ∧ t.panelHeight = s.panelHeight ∧ t.tempCode = s.tempCode ∧
    t.busyTimeout = s.busyTimeout ∧ t.srcWidth = s.srcWidth ∧ t.srcHeight = s.srcHeight ∧ t.replies = s.replies) :
    t.hostSide = s.hostSide := by
  obtain ⟨h1, h2, h3, h4, h5, h6, h7, h8, h9, h10, h11⟩ := h
  simp [State.hostSide, h1, h2, h3, h4, h5, h6, h7, h8, h9, h10, h11]

@[simp] theorem emit_hostSide (e : Event) (s : State) : (s.emit e).hostSide = s.hostSide := by simp [State.hostSide]
@[simp] theorem raise_hostSide (e : ErrorCode) (p : Phase) (j k : Nat) (s : State) :
    (s.raise e p j k).hostSide = s.hostSide := by simp [State.hostSide]
@[simp] theorem raiseHere_hostSide (e : ErrorCode) (s : State) : (s.raiseHere e).hostSide = s.hostSide := by
  simp [State.hostSide]
@[simp] theorem advance_hostSide (s : State) : s.advance.hostSide = s.hostSide := by simp [State.hostSide]
@[simp] theorem failItem_hostSide (e : ErrorCode) (s : State) : (s.failItem e).hostSide = s.hostSide := by
  simp [State.hostSide]
@[simp] theorem require_hostSide (ok : Bool) (e : ErrorCode) (s : State) : (s.require ok e).hostSide = s.hostSide := by
  simp [State.hostSide]
@[simp] theorem endOperation_hostSide (s : State) : s.endOperation.hostSide = s.hostSide := rfl
@[simp] theorem stampRefresh_hostSide (s : State) : s.stampRefresh.hostSide = s.hostSide := rfl
@[simp] theorem markExported_hostSide (l : Line) (v : Bool) (s : State) : (s.markExported l v).hostSide = s.hostSide := rfl
@[simp] theorem markBusOpen_hostSide (v : Bool) (s : State) : (s.markBusOpen v).hostSide = s.hostSide := rfl
@[simp] theorem acceptCommand_hostSide (op : Op) (j : Nat) (s : State) : (s.acceptCommand op j).hostSide = s.hostSide := rfl

@[simp] theorem emit_frameSide (e : Event) (s : State) : (s.emit e).frameSide = s.frameSide := by simp [State.frameSide]
@[simp] theorem raise_frameSide (e : ErrorCode) (p : Phase) (j k : Nat) (s : State) :
    (s.raise e p j k).frameSide = s.frameSide := by simp [State.frameSide]
@[simp] theorem raiseHere_frameSide (e : ErrorCode) (s : State) : (s.raiseHere e).frameSide = s.frameSide := by
  simp [State.frameSide]
@[simp] theorem advance_frameSide (s : State) : s.advance.frameSide = s.frameSide := by simp [State.frameSide]
@[simp] theorem failItem_frameSide (e : ErrorCode) (s : State) : (s.failItem e).frameSide = s.frameSide := by
  simp [State.frameSide]
@[simp] theorem require_frameSide (ok : Bool) (e : ErrorCode) (s : State) : (s.require ok e).frameSide = s.frameSide := by
  simp [State.frameSide]
@[simp] theorem endOperation_frameSide (s : State) : s.endOperation.frameSide = s.frameSide := rfl
@[simp] theorem stampRefresh_frameSide (s : State) : s.stampRefresh.frameSide = s.frameSide := rfl
@[simp] theorem markExported_frameSide (l : Line) (v : Bool) (s : State) : (s.markExported l v).frameSide = s.frameSide := rfl
@[simp] theorem markBusOpen_frameSide (v : Bool) (s : State) : (s.markBusOpen v).frameSide = s.frameSide := rfl
@[simp] theorem acceptCommand_frameSide (op : Op) (j : Nat) (s : State) :
    (s.acceptCommand op j).frameSide = s.frameSide := rfl

/-! ### Where the cursor can go -/

/-- The operation after a move of operation `o`: the same, CLEANUP, or none. -/
abbrev followsOp (o : Op) (o' : Op) : Prop := o' = o ∨ o' = .cleanup ∨ o' = .none

theorem advance_op (s : State) : followsOp s.seq.op s.advance.seq.op := by
  rcases advance_cases s with ⟨c, hc, h⟩ | ⟨_, h⟩
  · rw [h]; exact .inl (nextItem_spec hc).2
  · rw [h]; exact .inr (.inr rfl)

theorem raise_op (e : ErrorCode) (p : Phase) (j k : Nat) (s : State) : followsOp s.seq.op (s.raise e p j k).seq.op := by
  rcases raise_cases s e p j k with ⟨_, _, h⟩ | h
  · rw [h]; exact .inr (.inl rfl)
  · rw [h]; exact .inr (.inr rfl)

theorem note_seq (e : ErrorCode) (s : State) : (s.note e).seq = s.seq := by unfold State.note; split <;> rfl

theorem advanceAfterFail_op (s : State) : followsOp s.seq.op s.advanceAfterFail.seq.op := by
  unfold State.advanceAfterFail
  split
  · exact .inl rfl
  · exact advance_op s

theorem failItem_op (e : ErrorCode) (s : State) : followsOp s.seq.op (s.failItem e).seq.op := by
  unfold State.failItem
  split
  · exact raise_op ..
  · exact raise_op ..
  · have := advanceAfterFail_op (s.note e); rwa [note_seq] at this
  · exact advanceAfterFail_op s.cleanupFail
  · exact .inr (.inr rfl)
  · exact raise_op ..

/-- A checked event: its operation, whatever its effect on Ok, when that effect leaves the cursor. -/
theorem checkedEvent_op (e : Event) (f : State → State) (hf : ∀ s, (f s).seq = s.seq) (s : State) :
    followsOp s.seq.op (s.checkedEvent e f).seq.op := by
  unfold State.checkedEvent State.settle
  split
  · have := advance_op (f (s.emit e)); rwa [hf, State.emit_seq] at this
  · have := failItem_op .hardwareIo (s.emit e); rwa [State.emit_seq] at this

end Sys2Proof.Machine
end

