-- ==== Sys2Proof/Laws/Engine.lean ====
section
/-! SUPPORT. What a move of the sequencer can do, said once: the sides of the state it leaves alone, the operation it leaves
running, and the induction over the moves of one command. -/

namespace Sys2Proof.Machine

/-! ### One move -/

theorem checkedEvent_hostSide (e : Event) (f : State → State) (hf : ∀ s, (f s).hostSide = s.hostSide) (s : State) :
    (s.checkedEvent e f).hostSide = s.hostSide := by
  unfold State.checkedEvent State.settle; split <;> simp [hf]

theorem checkedEvent_frameSide (e : Event) (f : State → State) (hf : ∀ s, (f s).frameSide = s.frameSide) (s : State) :
    (s.checkedEvent e f).frameSide = s.frameSide := by
  unfold State.checkedEvent State.settle; split <;> simp [hf]

/-- A property of a state's next one that holds of every way a controller's move can go holds of the move. -/
theorem runAction_rule {P : State → State → Prop} (a : Action) (s : State)
    (hreq : ∀ ok e, P s (s.require ok e))
    (hev : ∀ e f, (∃ l v, f = State.markExported l v) ∨ (∃ v, f = State.markBusOpen v) ∨ f = id → P s (s.checkedEvent e f))
    (hst : ∀ e, P s (s.stampRefresh.checkedEvent e id))
    (hadv : ∀ e, P s (s.emit e).advance)
    (hfail : ∀ e c, P s ((s.emit e).failItem c))
    (hslp : ∀ e w, P s { s.emit e with wait := w }) : P s (s.runAction a) := by
  have hpoll : ∀ b t0, P s (s.pollBusy b t0) := by
    intro b t0
    unfold State.pollBusy
    split
    · unfold State.afterPoll
      split
      · exact hadv _
      · split
        · exact hfail _ _
        · exact hslp _ _
    · exact hfail _ _
  cases a with
  | test c => cases c <;> exact hreq _ _
  | exportLine l => exact hev _ _ (.inl ⟨_, _, rfl⟩)
  | setDir l d => exact hev _ _ (.inr (.inr rfl))
  | set l v => exact hev _ _ (.inr (.inr rfl))
  | setBestEffort l v => exact hadv _
  | unexportLine l => exact hev _ _ (.inl ⟨_, _, rfl⟩)
  | busOpen => exact hev _ _ (.inr (.inl ⟨_, rfl⟩))
  | busConfig => exact hev _ _ (.inr (.inr rfl))
  | busClose => exact hev _ _ (.inr (.inl ⟨_, rfl⟩))
  | delay ms => exact hadv _
  | wire w =>
    show P s (s.wireWrite w (s.wireBytes w))
    unfold State.wireWrite
    split
    · exact hst _
    · exact hev _ _ (.inr (.inr rfl))
  | waitBusy b =>
    show P s (s.waitMove b)
    unfold State.waitMove
    split
    · exact hpoll _ _
    · exact hpoll _ _
    · exact hslp _ _

theorem runAction_hostSide (a : Action) (s : State) : (s.runAction a).hostSide = s.hostSide := by
  refine runAction_rule (P := fun s t => t.hostSide = s.hostSide) a s ?_ ?_ ?_ ?_ ?_ ?_
  · intro ok e; simp
  · rintro e f (⟨l, v, rfl⟩ | ⟨v, rfl⟩ | rfl) <;> refine checkedEvent_hostSide _ _ ?_ s <;> intro _ <;> rfl
  · intro e; exact checkedEvent_hostSide e id (fun _ => rfl) s.stampRefresh
  · intro e; simp
  · intro e c; simp
  · intro e w; exact emit_hostSide e s

theorem runAction_frameSide (a : Action) (s : State) : (s.runAction a).frameSide = s.frameSide := by
  refine runAction_rule (P := fun s t => t.frameSide = s.frameSide) a s ?_ ?_ ?_ ?_ ?_ ?_
  · intro ok e; simp
  · rintro e f (⟨l, v, rfl⟩ | ⟨v, rfl⟩ | rfl) <;> refine checkedEvent_frameSide _ _ ?_ s <;> intro _ <;> rfl
  · intro e; exact checkedEvent_frameSide e id (fun _ => rfl) s.stampRefresh
  · intro e; simp
  · intro e c; simp
  · intro e w; exact emit_frameSide e s

theorem require_op (ok : Bool) (e : ErrorCode) (s : State) : followsOp s.seq.op (s.require ok e).seq.op := by
  unfold State.require
  split
  · exact advance_op s
  · exact raise_op ..

theorem runAction_op (a : Action) (s : State) : followsOp s.seq.op (s.runAction a).seq.op := by
  refine runAction_rule (P := fun s t => followsOp s.seq.op t.seq.op) a s ?_ ?_ ?_ ?_ ?_ ?_
  · intro ok e; exact require_op ..
  · rintro e f (⟨l, v, rfl⟩ | ⟨v, rfl⟩ | rfl) <;> refine checkedEvent_op _ _ ?_ s <;> intro _ <;> rfl
  · intro e; exact checkedEvent_op e id (fun _ => rfl) s.stampRefresh
  · intro e; have := advance_op (s.emit e); rwa [State.emit_seq] at this
  · intro e c; have := failItem_op c (s.emit e); rwa [State.emit_seq] at this
  · intro e w; exact .inl (by simp)

theorem controllerMove_cases (s : State) :
    s.controllerMove = s.advance ∨ s.controllerMove = s.endOperation ∨ ∃ a, s.controllerMove = s.runAction a := by
  unfold State.controllerMove
  split
  · split
    · exact .inl rfl
    · exact .inr (.inr ⟨_, rfl⟩)
  · exact .inr (.inl rfl)

@[simp] theorem controllerMove_hostSide (s : State) : s.controllerMove.hostSide = s.hostSide := by
  rcases controllerMove_cases s with h | h | ⟨a, h⟩ <;> rw [h]
  · simp
  · simp
  · exact runAction_hostSide a s

@[simp] theorem controllerMove_frameSide (s : State) : s.controllerMove.frameSide = s.frameSide := by
  rcases controllerMove_cases s with h | h | ⟨a, h⟩ <;> rw [h]
  · simp
  · simp
  · exact runAction_frameSide a s

theorem controllerMove_op (s : State) : followsOp s.seq.op s.controllerMove.seq.op := by
  rcases controllerMove_cases s with h | h | ⟨a, h⟩ <;> rw [h]
  · exact advance_op s
  · exact .inr (.inr rfl)
  · exact runAction_op a s

@[simp] theorem pixelOk_hostSide (b : Nat) (s : State) : (s.pixelOk b).hostSide = s.hostSide := by
  unfold State.pixelOk
  split
  · rfl
  · unfold State.storeGroup
    split
    · rfl
    · split <;> rfl

@[simp] theorem encodeMove_hostSide (s : State) : s.encodeMove.hostSide = s.hostSide := by
  unfold State.encodeMove
  split
  · unfold State.encodeGeometry; split
    · rfl
    · rw [raise_hostSide]; rfl
  · unfold State.encodeDimensions; split
    · rfl
    · simp
  · unfold State.encodePixel; split
    · simp
    · unfold State.pixelFail; rw [raise_hostSide]; simp [State.hostSide]
  · rfl
  · rfl
  · rfl

/-- No move changes the host's side (R20, R46). -/
@[simp] theorem move_hostSide (s : State) : s.move.hostSide = s.hostSide := by
  unfold State.move; split <;> simp

/-- A move of the controller leaves the frame's side alone (R34). -/
theorem move_frameSide {s : State} (h : s.seq.op ≠ .encode) : s.move.frameSide = s.frameSide := by
  unfold State.move; split <;> simp_all

/-- The operation after a move. -/
theorem move_op {s : State} (h : s.seq.op ≠ .encode) : followsOp s.seq.op s.move.seq.op := by
  unfold State.move
  split
  · exact .inr (.inr rfl)
  · contradiction
  all_goals exact controllerMove_op s

/-! ### The moves of one command -/

@[simp] theorem tick_hostSide (s : State) : s.tick.hostSide = s.hostSide := by unfold State.tick; split <;> rfl
@[simp] theorem tick_frameSide (s : State) : s.tick.frameSide = s.frameSide := by unfold State.tick; split <;> rfl
@[simp] theorem tick_seq (s : State) : s.tick.seq = s.seq := by unfold State.tick; split <;> rfl
@[simp] theorem tick_busy (s : State) : s.tick.busy = s.busy := by unfold State.tick; split <;> rfl
theorem tick_of_noInputs {s : State} (h : s.inputs = []) : s.tick = s := by unfold State.tick; rw [h]

/-- What every counted move keeps, the moves of a command keep. -/
theorem run_induction {P : State → Prop} (htick : ∀ s, P s → P s.tick) (hmove : ∀ s, s.busy = true → P s → P s.move)
    (n : Nat) {s : State} (h : P s) : P (State.run n s) := by
  induction n generalizing s with
  | zero => exact h
  | succ n ih =>
    unfold State.run
    split
    · rename_i hb
      refine ih (hmove _ ?_ (htick _ h))
      rw [tick_busy]; exact (Bool.and_eq_true_iff.1 hb).1
    · exact h

/-- Once the operation has ended, no more moves. -/
theorem run_of_notBusy (n : Nat) {s : State} (h : s.busy = false) : State.run n s = s := by
  cases n <;> simp [State.run, h]

/-- One move, with no input queued. -/
theorem run_succ (n : Nat) {s : State} (hb : s.busy = true) (hi : s.inputs = []) :
    State.run (n + 1) s = State.run n s.move := by
  simp [State.run, hb, State.inputDue, hi, tick_of_noInputs hi]

@[simp] theorem run_hostSide (n : Nat) (s : State) : (State.run n s).hostSide = s.hostSide :=
  run_induction (P := fun t => t.hostSide = s.hostSide) (fun t h => by simpa using h) (fun t _ h => by simpa using h) n rfl

/-- The moves of a controller's operation leave the frame's side alone. -/
theorem run_frameSide (n : Nat) {s : State} (h : s.seq.op ≠ .encode) : (State.run n s).frameSide = s.frameSide := by
  refine (run_induction (P := fun t => t.seq.op ≠ .encode ∧ t.frameSide = s.frameSide) ?_ ?_ n ⟨h, rfl⟩).2
  · intro t ht; simpa using ht
  · rintro t _ ⟨ho, hf⟩
    refine ⟨?_, (move_frameSide ho).trans hf⟩
    rcases move_op ho with h | h | h <;> rw [h] <;> simp_all

/-- A host command leaves the host's side alone, whether it is dropped or runs. -/
@[simp] theorem hostCommand_hostSide (op : Op) (s : State) : (s.hostCommand op).hostSide = s.hostSide := by
  unfold State.hostCommand; split
  · rfl
  · simp

end Sys2Proof.Machine
end

