-- ==== Sys2Proof/Laws/Memory.lean ====
section
/-! SUPPORT. The laws of a layer memory: a read after a write, that a write leaves every other byte alone, and that every memory
operation keeps the canonical form. -/

namespace Sys2Proof.Machine

@[simp] theorem memoryGet_nil (a : Nat) : memoryGet [] a = none := rfl

/-- A read after a write of the same byte gives the value written. -/
theorem memoryGet_memorySet_same (m : List Host.Cell) (a : Nat) (b : Byte) : memoryGet (memorySet m a b) a = some b := by
  induction m with
  | nil => simp [memorySet, memoryGet]
  | cons c r ih =>
    obtain ⟨k, v⟩ := c
    unfold memorySet
    split
    · simp [memoryGet]
    · split
      · simp [memoryGet]
      · simp [memoryGet, *]

/-- A write leaves every other byte alone. -/
theorem memoryGet_memorySet_other (m : List Host.Cell) {a i : Nat} (b : Byte) (h : i ≠ a) :
    memoryGet (memorySet m a b) i = memoryGet m i := by
  induction m with
  | nil => simp [memorySet, memoryGet, h]
  | cons c r ih =>
    obtain ⟨k, v⟩ := c
    unfold memorySet
    split
    · simp [memoryGet, h]
    · split
      · subst_vars; simp [memoryGet, h]
      · simp [memoryGet, ih]

/-- Every key of a written memory is an old key or the one written. -/
theorem mem_keys_memorySet {m : List Host.Cell} {a k : Nat} {b : Byte} (h : k ∈ (memorySet m a b).map Prod.fst) :
    k = a ∨ k ∈ m.map Prod.fst := by
  induction m with
  | nil => simp_all [memorySet]
  | cons c r ih =>
    obtain ⟨k', v⟩ := c
    unfold memorySet at h
    split at h
    · simpa using h
    · split at h
      · subst_vars; right; simpa using h
      · rw [List.map_cons] at h ⊢
        rcases List.mem_cons.1 h with h | h
        · exact .inr (h ▸ List.mem_cons_self)
        · rcases ih h with h | h
          · exact .inl h
          · exact .inr (List.mem_cons_of_mem _ h)

/-- A write keeps the canonical form. -/
theorem memorySet_wf {m : List Host.Cell} (a : Nat) (b : Byte) (h : memoryWf m) : memoryWf (memorySet m a b) := by
  induction m with
  | nil => simp [memoryWf, memorySet]
  | cons c r ih =>
    obtain ⟨k, v⟩ := c
    have hk : ∀ x ∈ r.map Prod.fst, k < x := (List.pairwise_cons.1 h).1
    have hr : memoryWf r := (List.pairwise_cons.1 h).2
    unfold memorySet
    split
    · refine List.pairwise_cons.2 ⟨fun x hx => ?_, h⟩
      rcases List.mem_cons.1 hx with rfl | hx
      · assumption
      · exact Nat.lt_trans ‹_› (hk x hx)
    · split
      · subst_vars; exact h
      · refine List.pairwise_cons.2 ⟨fun x hx => ?_, ih hr⟩
        rcases mem_keys_memorySet hx with rfl | hx
        · show k < x; omega
        · exact hk x hx

/-- Forgetting keeps the canonical form. -/
theorem memoryForget_wf {m : List Host.Cell} (l : Nat) (h : memoryWf m) : memoryWf (memoryForget l m) :=
  List.Pairwise.sublist (List.filter_sublist.map _) h

/-- Forgetting leaves the bytes from index l on alone. -/
theorem memoryGet_memoryForget_ge (m : List Host.Cell) {l i : Nat} (h : l ≤ i) :
    memoryGet (memoryForget l m) i = memoryGet m i := by
  induction m with
  | nil => rfl
  | cons c r ih =>
    obtain ⟨k, v⟩ := c
    unfold memoryForget at ih ⊢
    by_cases hk : l ≤ k
    · simp only [List.filter_cons, hk, decide_true, if_true, memoryGet]
      split
      · rfl
      · exact ih
    · have : i ≠ k := by omega
      simp only [List.filter_cons, hk, decide_false, memoryGet, this, if_false]
      exact ih

/-- A forgotten byte is not listed. -/
theorem memoryGet_memoryForget_lt (m : List Host.Cell) {l i : Nat} (h : i < l) : memoryGet (memoryForget l m) i = none := by
  induction m with
  | nil => rfl
  | cons c r ih =>
    obtain ⟨k, v⟩ := c
    unfold memoryForget at ih ⊢
    by_cases hk : l ≤ k
    · have : i ≠ k := by omega
      simp only [List.filter_cons, hk, decide_true, if_true, memoryGet, this, if_false]
      exact ih
    · simp only [List.filter_cons, hk, decide_false]
      exact ih

/-- A byte of a run of zero bytes, followed by anything. -/
theorem memoryGet_zeros (ks : List Nat) (m : List Host.Cell) (i : Nat) :
    memoryGet (ks.map (fun k => ((k, 0) : Host.Cell)) ++ m) i = if i ∈ ks then some 0 else memoryGet m i := by
  induction ks with
  | nil => simp
  | cons k r ih =>
    by_cases h : i = k
    · simp [memoryGet, h]
    · simpa [memoryGet, h] using ih

/-- Zeroing gives 0x00 below l. -/
theorem memoryGet_memoryZero_lt (m : List Host.Cell) {l i : Nat} (h : i < l) : memoryGet (memoryZero l m) i = some 0 := by
  unfold memoryZero
  rw [memoryGet_zeros, if_pos (List.mem_range.2 h)]

/-- Zeroing leaves the bytes from index l on alone. -/
theorem memoryGet_memoryZero_ge (m : List Host.Cell) {l i : Nat} (h : l ≤ i) :
    memoryGet (memoryZero l m) i = memoryGet m i := by
  unfold memoryZero
  rw [memoryGet_zeros, if_neg (by simpa using h), memoryGet_memoryForget_ge m h]

/-- Zeroing keeps the canonical form. -/
theorem memoryZero_wf {m : List Host.Cell} (l : Nat) (h : memoryWf m) : memoryWf (memoryZero l m) := by
  have hz : (List.map Prod.fst ((List.range l).map (fun i => ((i, 0) : Host.Cell)))) = List.range l := by
    simp [List.map_map, Function.comp_def]
  unfold memoryWf memoryZero
  rw [List.map_append, hz, List.pairwise_append]
  refine ⟨List.pairwise_lt_range, memoryForget_wf l h, fun a ha b hb => ?_⟩
  simp only [memoryForget, List.mem_map, List.mem_filter, decide_eq_true_eq] at hb
  obtain ⟨c, ⟨_, hc⟩, rfl⟩ := hb
  exact Nat.lt_of_lt_of_le (List.mem_range.1 ha) hc

end Sys2Proof.Machine
end

