-- ==== Sys2Proof/Laws/PerInstr.lean ====
section
/-! SUPPORT. Statements made of every instruction, one lemma for each constructor. -/

namespace Sys2Proof.Laws

/-- The length of an instruction in bytes, by its format (30_encoding.md R64: HC 4, W1 1, W2 2, W3 3, WP the payload's). -/
def formatLength : Instr → Nat
  | .encode => 4
  | .powerOn => 4
  | .sendImage => 4
  | .powerOff => 4
  | .softReset => 2
  | .tempComp _ => 2
  | .activateA => 2
  | .activateB => 2
  | .panelSettings => 3
  | .deepSleep => 2
  | .layerSelPrimary => 1
  | .layerSelSecondary => 1
  | .powerOnDisplay => 2
  | .refresh => 2
  | .layerData data => data.length

namespace EncodedLength

/-- An instruction is written as many bytes as its format says. -/
def Statement (i : Instr) : Prop := (Sys2Proof.encode i).length = formatLength i

theorem encode : Statement .encode := rfl
theorem powerOn : Statement .powerOn := rfl
theorem sendImage : Statement .sendImage := rfl
theorem powerOff : Statement .powerOff := rfl
theorem softReset : Statement .softReset := rfl
theorem tempComp (code : Byte) : Statement (.tempComp code) := rfl
theorem activateA : Statement .activateA := rfl
theorem activateB : Statement .activateB := rfl
theorem panelSettings : Statement .panelSettings := rfl
theorem deepSleep : Statement .deepSleep := rfl
theorem layerSelPrimary : Statement .layerSelPrimary := rfl
theorem layerSelSecondary : Statement .layerSelSecondary := rfl
theorem powerOnDisplay : Statement .powerOnDisplay := rfl
theorem refresh : Statement .refresh := rfl
theorem layerData (data : List Byte) : Statement (.layerData data) := rfl

end EncodedLength

end Sys2Proof.Laws
end

