-- ==== Sys2Proof/Laws/Step.lean ====
section
/-! SUPPORT. What a step can do, said once (`step_cases`): run a host command, reject an illegal one, take another input, make one
move, or wait. At an item that writes the bus, running the decoded wire command is the move. -/

namespace Sys2Proof.Machine

/-! ### A wire command is the move of its item -/

/-- The item at the cursor writes `w`, and is not skipped. -/
theorem wireItemHere_spec {s : State} {w : WireItem} (h : s.wireItemHere = some w) :
    actionAt s.seq = some (.wire w) ∧ s.skips (.wire w) = false := by
  unfold State.wireItemHere at h
  split at h
  · split at h
    · cases h
    · rename_i hs
      obtain rfl := Option.some.inj h
      exact ⟨‹_›, Bool.eq_false_iff.2 hs⟩
  · cases h

/-- Only the controller's operations have items. -/
theorem move_of_action {s : State} {a : Action} (h : actionAt s.seq = some a) : s.move = s.controllerMove := by
  obtain ⟨op, step, item⟩ : Cursor := s.seq
  unfold State.move
  split
  · rename_i ho; simp [actionAt, ho, Op.table, stepItems] at h
  · rename_i ho; simp [actionAt, ho, Op.table, stepItems] at h
  all_goals rfl

/-- The move of an item that writes the bus. -/
theorem move_of_wireItemHere {s : State} {w : WireItem} (h : s.wireItemHere = some w) :
    s.move = s.wireWrite w (s.wireBytes w) := by
  obtain ⟨ha, hs⟩ := wireItemHere_spec h
  rw [move_of_action ha]
  unfold State.controllerMove
  rw [ha]
  simp [hs, State.runAction]

/-- At its item, a wire command is its write. -/
theorem writeAt_next {s : State} {w : WireItem} (h : actionAt s.seq = some (.wire w)) (bytes : List Byte) :
    s.writeAt w bytes = .next (s.wireWrite w bytes) := by
  simp [State.writeAt, State.atWireItem, h]

/-- Running the wire command that the item's bytes decode to is the item's move. -/
theorem exec_wire_eq_move {s : State} {w : WireItem} {i : Instr} (h : s.wireItemHere = some w)
    (hd : decode w.channel (s.wireBytes w) = .ok i) : exec i s = .next s.move := by
  have ha := (wireItemHere_spec h).1
  rw [move_of_wireItemHere h]
  have hw := fun bytes => writeAt_next ha bytes
  cases w <;> simp only [WireItem.channel, State.wireBytes] at hd ⊢
  case activate =>
    cases hA : s.activatesA <;> rw [hA] at hd <;> obtain rfl : _ = i := Except.ok.inj hd <;> exact hw _
  case tempComp =>
    have : decode .wireCommand [0xE5, s.tempCode] = .ok (.tempComp s.tempCode) := by
      simp [decode, decodeWire, decodeW2]
    rw [this] at hd; obtain rfl := Except.ok.inj hd
    exact hw _
  case dataPrimary =>
    simp only [decode, decodePayload] at hd
    split at hd
    · obtain rfl := Except.ok.inj hd
      show execLayerData _ s = _
      unfold execLayerData State.atWireItem
      rw [ha]; exact hw _
    · cases hd
  case dataSecondary =>
    simp only [decode, decodePayload] at hd
    split at hd
    · obtain rfl := Except.ok.inj hd
      show execLayerData _ s = _
      unfold execLayerData State.atWireItem
      rw [ha]; exact hw _
    · cases hd
  all_goals obtain rfl : _ = i := Except.ok.inj hd; exact hw _

/-! ### One step -/

@[simp] theorem tick_wireItemHere (s : State) : s.tick.wireItemHere = s.wireItemHere := by
  unfold State.tick; split <;> rfl

@[simp] theorem tick_wireBytes (s : State) (w : WireItem) : s.tick.wireBytes w = s.wireBytes w := by
  unfold State.tick; split <;> rfl

/-- What decodes on the host's channel is one of the four host commands. -/
theorem decodeHost_cases {bytes : List Byte} {i : Instr} (h : decode .hostCommand bytes = .ok i) :
    i = .encode ∨ i = .powerOn ∨ i = .sendImage ∨ i = .powerOff := by
  have h : decodeHost bytes = .ok i := h
  unfold decodeHost at h
  split at h
  · unfold decodeCommand at h
    split at h
    · cases h
    · split at h <;> simp_all
  · cases h

/-- An input that lands: a write of CMD, or another input. -/
theorem fetchInput_cases (i : Input) :
    (∃ v, i = .write 0 4 v ∧ fetchInput i = .bytes .hostCommand (bytesOfWord v)) ∨ fetchInput i = .input i := by
  unfold fetchInput
  split
  · exact .inl ⟨_, rfl, rfl⟩
  · exact .inr rfl

/-- A step that answers a next state runs a host command, rejects an illegal one, takes another input, makes one move of the
running operation, or waits. -/
theorem step_cases {s t : State} (h : step s = .next t) :
    paramsOk s.params = true ∧
      ((∃ p rest v i, s.inputs = p :: rest ∧ s.inputDue = true ∧ p.input = .write 0 4 v ∧
          decode .hostCommand (bytesOfWord v) = .ok i ∧ exec i (s.setInputs rest) = .next t) ∨
        (∃ p rest, s.inputs = p :: rest ∧ s.inputDue = true ∧ t = (s.setInputs rest).illegalCommand) ∨
        (∃ p rest, s.inputs = p :: rest ∧ s.inputDue = true ∧
          State.takeInput p.input (s.setInputs rest) = .next t) ∨
        (s.inputDue = false ∧ s.busy = true ∧ t = s.tick.move) ∨
        (s.inputDue = false ∧ s.busy = false ∧ t = s)) := by
  unfold step at h
  split at h
  swap
  · cases h
  refine ⟨‹_›, ?_⟩
  cases hd : s.inputDue with
  | true =>
    have hf : s.fetched = s.setInputs s.inputs.tail := by simp [State.fetched, hd]
    cases hi : s.inputs with
    | nil => simp [State.inputDue, hi] at hd
    | cons p rest =>
      have hfetch : s.fetch = fetchInput p.input := by simp [State.fetch, hd, hi]
      rw [hf, hi, List.tail_cons, hfetch] at h
      rcases fetchInput_cases p.input with ⟨v, hp, hv⟩ | hp
      · rw [hv] at h
        dsimp only at h
        cases hdec : decode .hostCommand (bytesOfWord v) with
        | ok i => rw [hdec] at h; exact .inl ⟨p, rest, v, i, rfl, rfl, hp, hdec, h⟩
        | error e => rw [hdec] at h; exact .inr (.inl ⟨p, rest, rfl, rfl, (Host.Outcome.next.inj h).symm⟩)
      · rw [hp] at h; exact .inr (.inr (.inl ⟨p, rest, rfl, rfl, h⟩))
  | false =>
    have hf : s.fetched = s.tick := by simp [State.fetched, hd]
    rw [hf] at h
    cases hb : s.busy with
    | false =>
      have : s.fetch = .wait := by simp [State.fetch, hd, hb]
      rw [this] at h
      exact .inr (.inr (.inr (.inr ⟨rfl, rfl, (Host.Outcome.next.inj h).symm⟩)))
    | true =>
      refine .inr (.inr (.inr (.inl ⟨rfl, rfl, ?_⟩)))
      cases hw : s.wireItemHere with
      | none =>
        have : s.fetch = .item := by simp [State.fetch, hd, hb, hw]
        rw [this] at h
        exact (Host.Outcome.next.inj h).symm
      | some w =>
        have : s.fetch = .bytes w.channel (s.wireBytes w) := by simp [State.fetch, hd, hb, hw]
        rw [this] at h
        simp only at h
        split at h
        · rename_i i hdec
          rw [exec_wire_eq_move (w := w) (i := i) (by simpa using hw) (by simpa using hdec)] at h
          exact (Host.Outcome.next.inj h).symm
        · cases w <;> exact (Host.Outcome.next.inj h).symm

end Sys2Proof.Machine
end

