-- ==== Sys2Proof/Laws/Trace.lean ====
section
/-! SUPPORT. What one more entry of the trace changes in the views of it: the handles it accounts for (R56, R57), what CLEANUP acts on
(R104), and the bits on the wire (R52). -/

namespace Sys2Proof.Machine

/-- A failed event changes no handle (R56). -/
theorem heldAfter_fail {e : Entry} (h : e.outcome = .fail) (n : Nat) (held : Bool) : heldAfter n held e = held := by
  simp [heldAfter, h]

/-- A failed event leaves the bus as it was (R57). -/
theorem openAfter_fail {e : Entry} (h : e.outcome = .fail) (o : Bool) : openAfter o e = o := by simp [openAfter, h]

/-- An event on no line changes no line's handle (R56). -/
theorem heldAfter_noLine {e : Entry} (h : e.event.line? = none) (n : Nat) (held : Bool) : heldAfter n held e = held := by
  unfold heldAfter
  split
  · rfl
  · cases he : e.event <;> simp_all [Event.line?]

theorem cleanupOnHeld_nil : cleanupOnHeld [] := fun pre e post h => absurd h (by simp)

/-- One more entry: CLEANUP acts only on what is held in the longer trace exactly when it did before, and the entry does. -/
theorem cleanupOnHeld_concat (t : List Entry) (e : Entry) :
    cleanupOnHeld (t ++ [e]) ↔ cleanupOnHeld t ∧ (e.pos.op = .cleanup →
      (∀ n, e.event.line? = some n → t.foldl (heldAfter n) false = true) ∧
      (e.event = .busClose ∨ (∃ bytes, e.event = .busWrite bytes) → t.foldl openAfter false = true)) := by
  constructor
  · intro h
    refine ⟨fun pre d post hd => ?_, h t e [] rfl⟩
    exact h pre d (post ++ [e]) (by simp [hd])
  · rintro ⟨ht, he⟩ pre d post hd
    rcases List.eq_nil_or_concat post with rfl | ⟨post', x, rfl⟩
    · obtain ⟨rfl, hx⟩ := List.append_inj' hd rfl
      obtain rfl := List.head_eq_of_cons_eq hx
      exact he
    · rw [List.concat_eq_append, ← List.cons_append, ← List.append_assoc] at hd
      exact ht pre d post' (List.append_inj' hd rfl).1

/-! ### The bits on the wire -/

@[simp] theorem emit_busBits (e : Event) (s : State) (bytes : List Byte) : (s.emit e).busBits bytes = s.busBits bytes := by
  simp [State.busBits]

@[simp] theorem wireBits_nil (msbFirst : Bool) : wireBits msbFirst [] = [] := rfl

/-- The first byte goes out first (R52). -/
theorem wireBits_cons (msbFirst : Bool) (b : Byte) (bytes : List Byte) :
    wireBits msbFirst (b :: bytes) =
      (if msbFirst then bitsMsbFirst b else (bitsMsbFirst b).reverse) ++ wireBits msbFirst bytes := rfl

/-- The view of the wire depends on the trace and the parameters alone. -/
theorem sentBits_congr {s t : State} (hp : t.params = s.params) (ht : t.trace = s.trace) : t.sentBits = s.sentBits := by
  have : t.entryBits = s.entryBits := by
    funext e; unfold State.entryBits State.busBits; rw [hp]
  rw [State.sentBits, State.sentBits, ht, this]

end Sys2Proof.Machine
end

