-- ==== Sys2Proof/Tests/Slice0.lean ====
section
/-! SUPPORT. The model's own tests: the well-formedness smoke, a decoded word for every constructor, vectors of
95_test_vectors.md, and a witness for the hypotheses of each statement. Expected values come from the spec's vectors and tables. -/

namespace Sys2Proof.Tests

open Sys2Proof Sys2Proof.Machine

/-! ### Helpers -/

/-- An answer Ok, with the busy line at level 1 and no excess time. -/
def okAns : Answer := { ok := true, level := true, bright := 0, ms := 0 }
/-- An answer Ok, with the busy line at level 0. -/
def lowAns : Answer := { ok := true, level := false, bright := 0, ms := 0 }
/-- An answer Fail. -/
def failAns : Answer := { ok := false, level := true, bright := 0, ms := 0 }
/-- The pixel source's answers for a list of brightnesses. -/
def pixels (bs : List Nat) : List Answer := bs.map (fun b => { ok := true, level := true, bright := b, ms := 0 })

/-- The vectors' parameters: BUSY_ASSERTED_LEVEL = 1. -/
def tParams : Params :=
  { Config.params with
    busDevicePath := "bus", busyAssertedLevel := true, busyTimeoutReset := 1000, tempCodeReset := 0x19 }

/-- After reset, with the vectors' parameters and Now() = 0. -/
def idle : State := { State.reset with params := tParams, tempCode := 0x19, busyTimeout := 1000, now := 0 }

/-- Idle, with the panel's geometry 400×300. -/
def idlePanel : State := { idle with panelWidth := 400, panelHeight := 300 }

/-- An Active session with a frame 8×1 whose PRIMARY[0] = 0x55. -/
def active : State :=
  { idle with
    session := true, exported := allExported, busOpen := true, panelWidth := 8, panelHeight := 1
    frameValid := true, frameWidth := 8, frameHeight := 1, primary := [(0, 0x55)], secondary := [(0, 0)] }

/-- ENCODE 8×1 with the pixel source at hand. -/
def encode8 (bs : List Answer) : State :=
  { idle with encWidth := 8, encHeight := 1, srcWidth := 8, srcHeight := 1, env := bs }

/-- A running operation at an item. -/
def atCursor (op : Op) (step item : Nat) (s : State) : State :=
  { s with busy := true, seq := { op := op, step := step, item := item } }

/-- The state of an outcome that is next. -/
def nextOf (o : Host.Outcome State Fault Refusal) : State :=
  match o with
  | .next s => s
  | .fault _ => State.reset
  | .refused _ => State.reset

/-- An outcome is next. -/
def isNext (o : Host.Outcome State Fault Refusal) : Bool :=
  match o with
  | .next _ => true
  | .fault _ => false
  | .refused _ => false

/-- An input lands at the next step. -/
def lands (i : Input) (s : State) : State := { s with inputs := [{ after := 0, input := i }] }

/-! ### Well-formedness -/

theorem test_wf_refuses_empty_payload : Instr.wellFormed (.layerData []) = false := by decide
theorem wellFormed_layerData (data : List Byte) :
    Instr.wellFormed (.layerData data) = decide (payloadLengthOk data.length) := rfl
theorem test_wf_refuses_long_payload : Instr.wellFormed (.layerData (List.replicate 15001 0)) = false := by
  rw [wellFormed_layerData, List.length_replicate]; decide
theorem test_wf_admits_full_payload : Instr.wellFormed (.layerData (List.replicate 15000 0)) = true := by
  rw [wellFormed_layerData, List.length_replicate]; decide

/-! ### Decoding: words from 30_encoding.md R66 and R68, bit by bit -/

theorem test_decode_ENCODE : decodeTableWord 32 0b00000000000000000000000000000001 = some .encode := by decide
theorem test_decode_POWER_ON : decodeTableWord 32 0b00000000000000000000000000010000 = some .powerOn := by decide
theorem test_decode_SEND_IMAGE : decodeTableWord 32 0b00000000000000000000000000010001 = some .sendImage := by decide
theorem test_decode_POWER_OFF : decodeTableWord 32 0b00000000000000000000000000010010 = some .powerOff := by decide
theorem test_decode_SOFT_RESET : decodeTableWord 16 0b0000000000001110 = some .softReset := by decide
theorem test_decode_TEMP_COMP : decodeTableWord 16 0b1110010100011001 = some (.tempComp 0x19) := by decide
theorem test_decode_ACTIVATE_A : decodeTableWord 16 0b1110000000000010 = some .activateA := by decide
theorem test_decode_ACTIVATE_B : decodeTableWord 16 0b1100111100000010 = some .activateB := by decide
theorem test_decode_PANEL_SETTINGS : decodeTableWord 24 0b000000000000111110001001 = some .panelSettings := by decide
theorem test_decode_DEEP_SLEEP : decodeTableWord 16 0b0000001000000010 = some .deepSleep := by decide
theorem test_decode_LAYER_SEL_PRIMARY : decodeTableWord 8 0b00010000 = some .layerSelPrimary := by decide
theorem test_decode_LAYER_SEL_SECONDARY : decodeTableWord 8 0b00010011 = some .layerSelSecondary := by decide
theorem test_decode_POWER_ON_DISPLAY : decodeTableWord 16 0b0000010000000100 = some .powerOnDisplay := by decide
theorem test_decode_REFRESH : decodeTableWord 16 0b0001001000010010 = some .refresh := by decide
theorem test_decode_LAYER_DATA : decode .wirePayload [0x01, 0x02, 0x80, 0x80] = .ok (.layerData [0x01, 0x02, 0x80, 0x80]) := by
  decide
/-- V-H2 to V-H4: illegal command words. -/
theorem test_decode_illegal_words :
    decodeTableWord 32 0 = none ∧ decodeTableWord 32 0x13 = none ∧ decodeTableWord 32 0x101 = none := by decide
/-- R68: no wire command `00 0F`. -/
theorem test_decode_prefix_is_no_command : decodeTableWord 16 0x000F = none := by decide
/-- R52, 95_test_vectors.md section 5: the byte 0x01 goes out as 0,0,0,0,0,0,0,1. -/
theorem test_wire_bits_msb_first :
    wireBits true [0x01] = [false, false, false, false, false, false, false, true] := by decide

/-! ### The step from reset -/

theorem test_reset_runs_host_commands :
    isNext (step (State.reset.withFetchWord 32 0x01)) && isNext (step (State.reset.withFetchWord 32 0x10)) &&
      isNext (step (State.reset.withFetchWord 32 0x11)) && isNext (step (State.reset.withFetchWord 32 0x12)) = true := by
  decide
theorem test_reset_runs_wire_commands :
    isNext (step (State.reset.withFetchWord 16 0x000E)) && isNext (step (State.reset.withFetchWord 16 0xE519)) &&
      isNext (step (State.reset.withFetchWord 16 0xE002)) && isNext (step (State.reset.withFetchWord 16 0xCF02)) &&
      isNext (step (State.reset.withFetchWord 24 0x000F89)) && isNext (step (State.reset.withFetchWord 16 0x0202)) &&
      isNext (step (State.reset.withFetchWord 8 0x10)) && isNext (step (State.reset.withFetchWord 8 0x13)) &&
      isNext (step (State.reset.withFetchWord 16 0x0404)) && isNext (step (State.reset.withFetchWord 16 0x1212)) &&
      isNext (step (State.reset.withFetchWord 0 0)) && isNext (step (State.reset.withFetchWord 48 0x010203040506)) = true := by
  decide

/-! ### ENCODE (95_test_vectors.md section 2) -/

/-- V-E1. -/
theorem test_encode_threshold :
    (nextOf (exec .encode (encode8 (pixels [127, 128, 127, 128, 127, 128, 127, 128])))).primary = [(0, 0x55)] := by decide
/-- V-E16. -/
theorem test_encode_pixel_fail :
    let t := nextOf (exec .encode (encode8 (pixels [0, 0, 0] ++ [failAns])))
    t.error.word = 0x00003102 ∧ t.errX = 3 ∧ t.errY = 0 ∧ t.frameValid = false := by decide
/-- V-E5 and V-E6: 16×2, colour 1; the window word of P1. -/
theorem test_encode_rows_and_groups :
    let s := { idle with
      encWidth := 16, encHeight := 2, encColor := true, srcWidth := 16, srcHeight := 2
      env := pixels ([0] ++ List.replicate 8 255 ++ [0] ++ List.replicate 6 255 ++ List.replicate 7 255 ++ [0] ++
        List.replicate 7 255 ++ [0]) }
    (nextOf (exec .encode s)).readValue 0x10000 4 = 0x80800201 ∧ (nextOf (exec .encode s)).frameColor = true := by decide
/-- V-E14 and V-E15: the check order. -/
theorem test_encode_check_order :
    (nextOf (exec .encode { idle with encWidth := 12, encHeight := 1, srcWidth := 8, srcHeight := 1 })).error.word = 0x00001105 ∧
    (nextOf (exec .encode { idle with encWidth := 400, encHeight := 300, srcWidth := 300, srcHeight := 400 })).error.word =
      0x00002101 := by decide

/-! ### The host port (95_test_vectors.md section 3) -/

/-- V-H1. -/
theorem test_reset_status : (nextOf (step (lands (.read 4 4) idle))).replies = [{ a := 4, n := 4, value := 0 }] := by decide
/-- V-H3. -/
theorem test_illegal_word : (nextOf (step (lands (.write 0 4 0x13) idle))).error.word = 0x00000509 := by decide
/-- V-H5. -/
theorem test_command_while_busy :
    let t := nextOf (step (lands (.write 0 4 0x10) (atCursor .encode 3 0 idle)))
    t.hazard = true ∧ t.seq.op = .encode := by decide
/-- V-H6. -/
theorem test_panel_write_in_session :
    let t := nextOf (step (lands (.write 0x2C 4 16) active))
    t.hazard = true ∧ t.panelWidth = 8 := by decide
/-- V-H7 and V-H8. -/
theorem test_reserved_bits_dropped :
    (nextOf (step (lands (.write 0x34 4 0x1FF) idle))).readRegister 0x34 = 0xFF ∧
    (nextOf (step (lands (.write 0x1C 4 0xFFFFFFFF) idle))).readRegister 0x1C = 1 := by decide
/-- V-H9. -/
theorem test_read_only_write_ignored :
    let t := nextOf (step (lands (.write 0x20 4 5) idle))
    t.frameWidth = 0 ∧ t.hazard = false := by decide
/-- V-H13 and V-H14. -/
theorem test_refused_accesses :
    isNext (step (lands (.read 0x10002 4) idle)) = false ∧ isNext (step (lands (.read 4 1) idle)) = false := by decide

/-! ### POWER_ON, SEND_IMAGE, POWER_OFF (95_test_vectors.md section 4) -/

/-- V-C1: STATUS and the 24 events. V-C1's 35 ms is no sum of R148's delays, which give 30 (log 20). -/
theorem test_power_on :
    let t := nextOf (exec .powerOn { idlePanel with env := List.replicate 24 okAns })
    t.statusWord = 0x00001F42 ∧ t.now = 30 ∧ t.trace.length = 24 := by decide
/-- V-C4: the failure at step 1 item 7, and its cleanup. -/
theorem test_power_on_fails_at_item_7 :
    let t := nextOf (exec .powerOn { idlePanel with env := List.replicate 7 okAns ++ [failAns] ++ List.replicate 11 okAns })
    t.error.word = 0x00701203 ∧ t.statusWord = 0 ∧
    (t.trace.drop 8).map Entry.event =
      [.setDir 24 .input, .set 17 false, .set 27 false, .set 18 false, .set 23 false, .delay 150, .unexportLine 18,
       .unexportLine 24, .unexportLine 17, .unexportLine 27, .unexportLine 23] := by decide
/-- V-C9. -/
theorem test_send_image :
    let t := nextOf (exec .sendImage { active with
      now := 1000, env := List.replicate 14 okAns ++ [lowAns] ++ List.replicate 2 okAns })
    t.lastRefresh = 1000 ∧ t.statusWord = 0x00001F56 ∧ t.trace.length = 17 ∧
    (t.trace.map Entry.event)[4]? = some (.busWrite [0x55]) := by decide
/-- P4: a timeout at step 3 with T = 10, and a cleanup that times out as well. -/
theorem test_send_image_times_out :
    let t := nextOf (exec .sendImage { active with
      now := 1000, busyTimeout := 10, env := List.replicate 50 lowAns })
    t.error.word = 0x00003304 ∧ t.statusWord = 0x00000024 ∧ t.now = 1170 := by decide
/-- V-C13: `Unexport(27)!Fail`. -/
theorem test_power_off_unexport_fails :
    let t := nextOf (exec .powerOff { active with
      frameValid := false, env := List.replicate 11 okAns ++ [failAns] ++ List.replicate 2 okAns })
    t.error.word = 0x00306403 ∧ t.statusWord = 0x0800 := by decide
/-- V-C13: busy never asserted, T = 10. -/
theorem test_power_off_times_out :
    (nextOf (exec .powerOff { active with busyTimeout := 10, env := List.replicate 30 lowAns })).error.word = 0x00101404 := by
  decide

/-! ### Wire commands: the vectors' failure codes, at their items -/

/-- V-C6: `BusWrite[00 0E]!Fail`. -/
theorem test_soft_reset_fails :
    (nextOf (exec .softReset (atCursor .powerOn 3 0 { idle with env := [failAns] }))).error.word = 0x00003203 := by decide
/-- R111, R112: the choice by geometry. -/
theorem test_activation_choice :
    idlePanel.wireBytes .activate = [0xE0, 0x02] ∧
    ({ idlePanel with panelHeight := 296 } : State).wireBytes .activate = [0xCF, 0x02] := by decide
/-- R113: after PANEL_SETTINGS the session is up. -/
theorem test_panel_settings_ends_power_on :
    (nextOf (exec .panelSettings (atCursor .powerOn 6 0 { idle with env := [okAns] }))).session = true := by decide
/-- V-C13: `BusWrite[02 02]!Fail`. -/
theorem test_deep_sleep_noted :
    let t := nextOf (exec .deepSleep (atCursor .powerOff 1 0 { active with env := [failAns] }))
    t.error.word = 0x00001403 ∧ t.seq = { op := .powerOff, step := 2, item := 0 } := by decide
/-- V-C11: a failed REFRESH write at Now() = 2000. -/
theorem test_refresh_fails :
    let t := nextOf (exec .refresh (atCursor .sendImage 5 0 { active with now := 2000, env := [failAns] }))
    t.lastRefresh = 2000 ∧ t.lastRefreshValid = true ∧ t.error.word = 0x00005303 := by decide

/-! ### Witnesses: the hypotheses of each statement can be met together -/

theorem witness_DecodeOfEncodeIsIdentity : (Instr.layerData [0x55]).wellFormed = true ∧ Instr.encode.wellFormed = true := by
  decide
theorem witness_DecodedBytesAreTheEncoding :
    decode .wireCommand [0xE5, 0xFF] = .ok (.tempComp 0xFF) ∧ decode .hostCommand [0x12, 0, 0, 0] = .ok .powerOff ∧
      decode .wirePayload [0x10] = .ok (.layerData [0x10]) := by decide
theorem witness_StepRunsTheDecodedInstruction_command :
    paramsOk idle.params = true ∧ (lands (.write 0 4 0x12) idle).inputs = { after := 0, input := .write 0 4 0x12 } :: [] ∧
      decode .hostCommand (bytesOfWord 0x12) = .ok .powerOff := by decide
theorem witness_StepRunsTheDecodedInstruction_wire :
    let s := atCursor .cleanup 1 0 active
    paramsOk s.params = true ∧ s.inputDue = false ∧ s.busy = true ∧ s.wireItemHere = some .deepSleep ∧
      decode WireItem.deepSleep.channel (s.wireBytes .deepSleep) = .ok .deepSleep := by decide
theorem witness_BadParametersAreRefused :
    Config.busClockMaxHz < ({ tParams with busClockHz := 10000001 } : Params).busClockHz ∧
      ({ tParams with busClockHz := 0 } : Params).busClockHz = 0 ∧ ({ tParams with busWordBits := 9 } : Params).busWordBits ≠ 8 ∧
      ({ tParams with busMode := 1 } : Params).busMode ≠ 0 ∧ ¬ [18, 17, 18, 23, 24].Nodup ∧
      25 ∈ [18, 25, 27, 23, 24] := by decide
/-- R90: line 25 may have no role, whatever line is reserved. -/
theorem test_line_25_has_no_role :
    paramsOk { tParams with lines := { Config.lines with power := 25, reserved := 26 } } = false ∧ paramsOk tParams = true := by
  decide
theorem witness_StepKeepsParameters : isNext (step (lands (.write 0x14 4 8) idle)) = true := by decide
/-- R42 at its boundary offsets, admitted and not. -/
theorem witness_HostAccessesAdmittedExactly :
    paramsOk idle.params = true ∧ idle.busy = false ∧ isNext (step (lands (.read 0x2FFFC 4) idle)) = true ∧
      isNext (step (lands (.read 0x2FFFF 1) idle)) = true ∧ isNext (step (lands (.read 0x10000 1) idle)) = true ∧
      isNext (step (lands (.read 0x0FFFF 1) idle)) = false ∧ isNext (step (lands (.write 0x30000 4 0) idle)) = false ∧
      isNext (step (lands (.read 0x2FFFE 4) idle)) = false ∧ isNext (step (lands (.read 0x20000 2) idle)) = false := by
  decide
theorem witness_HostReadsHaveNoSideEffects :
    paramsOk idle.params = true ∧ (lands (.read 0x40 4) idle).inputs = [{ after := 0, input := .read 0x40 4 }] ∧
      0x40 % 4 = 0 := by decide
/-- The reserved block's first and last words, and BUSY = 1. -/
theorem witness_HostReadsHaveNoSideEffects_bounds :
    (nextOf (step (lands (.read 0x44 4) idle))).replies = [{ a := 0x44, n := 4, value := 0 }] ∧
      (nextOf (step (lands (.read 0xFFFC 4) idle))).replies = [{ a := 0xFFFC, n := 4, value := 0 }] ∧
      (nextOf (step (lands (.read 0x04 4) (atCursor .encode 3 0 idle)))).replies = [{ a := 4, n := 4, value := 1 }] := by
  decide
/-- The first bytes, and the first and last bytes of a reserved tail (V-H11). -/
theorem witness_WindowReadsReturnLayerBytes :
    (nextOf (step (lands (.read 0x10000 1) active))).replies = [{ a := 0x10000, n := 1, value := 0x55 }] ∧
      (nextOf (step (lands (.read 0x20000 1) active))).replies = [{ a := 0x20000, n := 1, value := 0 }] ∧
      (nextOf (step (lands (.read 0x13A98 1) active))).replies = [{ a := 0x13A98, n := 1, value := 0 }] ∧
      (nextOf (step (lands (.read 0x1FFFF 1) active))).replies = [{ a := 0x1FFFF, n := 1, value := 0 }] := by decide
/-- The last bytes of a layer, in one word. -/
theorem witness_WindowReadsReturnLayerBytes_last :
    let s := { active with primary := [(14996, 1), (14997, 2), (14998, 3), (14999, 4)] }
    (nextOf (step (lands (.read 0x13A94 4) s))).replies = [{ a := 0x13A94, n := 4, value := 0x04030201 }] := by decide
/-- V-H11: the first word of the PRIMARY tail and the last of the SECONDARY tail, the second while BUSY = 1. -/
theorem witness_WindowReadsReturnLayerBytes_tail :
    (nextOf (step (lands (.read 0x13A98 4) active))).replies = [{ a := 0x13A98, n := 4, value := 0 }] ∧
      (nextOf (step (lands (.read 0x2FFFC 4) (atCursor .encode 3 0 idle)))).replies =
        [{ a := 0x2FFFC, n := 4, value := 0 }] := by decide
theorem witness_DroppedWritesOnlySetHazard :
    0x38 ∈ [0x000, 0x014, 0x018, 0x01C, 0x038] ∧ (atCursor .encode 3 0 idle).busy = true ∧
      0x34 ∈ [0x02C, 0x030, 0x034] ∧ active.session = true ∧ active.busy = false := by decide
theorem witness_AdmittedWritesStore :
    (nextOf (step (lands (.write 0x14 4 8) idle))).encWidth = 8 ∧ (nextOf (step (lands (.write 0x18 4 8) idle))).encHeight = 8 ∧
      (nextOf (step (lands (.write 0x1C 4 3) idle))).encColor = true ∧
      (nextOf (step (lands (.write 0x38 4 8) active))).busyTimeout = 8 ∧
      (nextOf (step (lands (.write 0x2C 4 8) idle))).panelWidth = 8 ∧
      (nextOf (step (lands (.write 0x30 4 8) idle))).panelHeight = 8 ∧
      (nextOf (step (lands (.write 0x34 4 0x108) idle))).tempCode = 8 ∧
      (nextOf (step (lands (.write 0x10000 4 8) active))).primary = [(0, 0x55)] ∧
      (nextOf (step (lands (.write 0x2FFFF 1 8) active))).hazard = false := by decide
theorem witness_IllegalCommandFailsAtOnce :
    paramsOk idle.params = true ∧ idle.busy = false ∧ (0 : Word) ≠ 0x01 ∧ (0 : Word) ≠ 0x10 ∧ (0 : Word) ≠ 0x11 ∧
      (0 : Word) ≠ 0x12 := by decide
theorem witness_CommandsWhileBusyAreDropped :
    Instr.channel .sendImage = .hostCommand ∧ (atCursor .encode 3 0 idle).busy = true := by decide
theorem witness_UnitResetOnlyFromQuiescent :
    isNext (step (lands .unitReset idle)) = true ∧ isNext (step (lands .unitReset active)) = false ∧
      isNext (step (lands .unitReset { idle with exported := { noneExported with dc := true } })) = false := by decide
theorem witness_RaiseRecordsAndDiverts :
    (ErrorCode.hardwareIo = .hardwareIo ∧ Phase.init = .init) ∧ ¬ (ErrorCode.noFrame = .hardwareIo) := by decide
theorem witness_EventEntersTrace : ({ idle with env := [okAns] } : State).env = okAns :: [] := by decide
theorem witness_EncodeChecksGeometryThenDimensions :
    idle.busy = false ∧ idle.inputs = [] ∧ geometryValid idle.encWidth.toNat idle.encHeight.toNat = false ∧
      geometryValid (encode8 []).encWidth.toNat (encode8 []).encHeight.toNat = true ∧
      ({ encode8 [] with srcHeight := 2 } : State).srcHeight ≠ (encode8 []).encHeight.toNat := by decide
/-- V-E9 to V-E13: the boundary geometries. -/
theorem witness_GeometryValidExactly :
    geometryValid 8 15000 = true ∧ geometryValid 8 15001 = false ∧ geometryValid 120000 1 = true ∧
      geometryValid 408 300 = false ∧ geometryValid 0xFFFFFFF8 1 = false ∧ geometryValid 0 1 = false ∧
      geometryValid 8 0 = false := by decide
theorem witness_EncodePacksTheRaster :
    let as := pixels [0, 255, 255, 255, 255, 255, 255, 255]
    let s := encode8 as
    s.busy = false ∧ s.inputs = [] ∧ geometryValid s.encWidth.toNat s.encHeight.toNat = true ∧
      s.srcWidth = s.encWidth.toNat ∧ s.srcHeight = s.encHeight.toNat ∧ s.env = as ++ [] ∧
      as.length = s.encWidth.toNat * s.encHeight.toNat ∧
      (∀ x, x < 8 → ∀ y, y < 1 → (as[y * 8 + x]?).map (fun a => (a.ok, a.bright % 2 ^ s.params.brightnessBits)) =
        some (true, if x = 0 then 0 else 255)) := by decide
theorem witness_EncodeReadsEachPixelOnceInOrder :
    let as := pixels [0, 255, 255, 255, 255, 255, 255, 255]
    let s := encode8 as
    s.env = as ++ [] ∧ as.length = s.encWidth.toNat * s.encHeight.toNat ∧ (∀ a ∈ as, a.ok = true) := by decide
theorem witness_EncodeStopsAtFirstFailedRead :
    let as := pixels [0, 0, 0]
    let s := encode8 (as ++ [failAns])
    s.env = as ++ failAns :: [] ∧ as.length < s.encWidth.toNat * s.encHeight.toNat ∧ (∀ b ∈ as, b.ok = true) ∧
      failAns.ok = false := by decide
theorem witness_EncodeKeepsBytesBeyondTheFrame :
    isNext (exec .encode (encode8 (pixels [0]))) = true := by decide
theorem witness_PowerOnBringsTheSessionUp :
    let as := List.replicate 24 okAns
    let s := { idlePanel with env := as }
    s.busy = false ∧ s.session = false ∧ s.inputs = [] ∧ geometryValid s.panelWidth.toNat s.panelHeight.toNat = true ∧
      s.env = as ++ [] ∧ as.length = 24 ∧ (∀ a ∈ as, a.ok = true) := by decide
theorem witness_DefaultActivationChoice : idlePanel.params.activateAFor = Config.params.activateAFor := by decide
theorem witness_PowerOnPreconditions :
    active.busy = false ∧ active.inputs = [] ∧ active.session = true ∧ idle.busy = false ∧ idle.inputs = [] ∧
      idle.session = false ∧ geometryValid idle.panelWidth.toNat idle.panelHeight.toNat = false := by decide
theorem witness_PowerOnIsAtomicOrFailed :
    idlePanel.busy = false ∧ idlePanel.session = false ∧ idlePanel.inputs = [] ∧
      geometryValid idlePanel.panelWidth.toNat idlePanel.panelHeight.toNat = true ∧ paramsOk idlePanel.params = true := by
  decide
/-- V-C4: what CLEANUP issues after the failure at step 1 item 7, by what is held. -/
theorem witness_PowerOnIsAtomicOrFailed_cleanup :
    cleanupEvents Config.lines (fun _ => true) false =
      [.setDir 24 .input, .set 17 false, .set 27 false, .set 18 false, .set 23 false, .delay 150, .unexportLine 18,
       .unexportLine 24, .unexportLine 17, .unexportLine 27, .unexportLine 23] := by decide
theorem witness_SendImageTransfersAndRefreshes :
    let as := List.replicate 14 okAns ++ [lowAns] ++ List.replicate 2 okAns
    let s := { active with env := as }
    s.busy = false ∧ s.session = true ∧ s.inputs = [] ∧ s.frameValid = true ∧ s.frameWidth = s.panelWidth ∧
      s.frameHeight = s.panelHeight ∧ s.lastRefreshValid = false ∧ s.env = as ++ [] ∧ as.length = 17 ∧
      (∀ a ∈ as, a.ok = true) ∧ as[12]? = some okAns ∧ as[14]? = some lowAns ∧ as[16]? = some okAns ∧
      okAns.level = s.params.busyAssertedLevel ∧ lowAns.level = !s.params.busyAssertedLevel := by decide
/-- The guard's boundary of R99: 180 999 is rejected, 181 000 passes. -/
theorem witness_SendImagePreconditionsInOrder :
    idle.session = false ∧ ({ active with frameValid := false } : State).frameValid = false ∧
      ({ active with frameHeight := 2 } : State).frameHeight ≠ active.panelHeight ∧
      (BitVec.ofNat 64 180999 - (1000 : BitVec 64)).toNat < 180000 ∧
      180000 ≤ (BitVec.ofNat 64 181000 - (1000 : BitVec 64)).toNat ∧
      (nextOf (exec .sendImage { active with now := 180999, lastRefresh := 1000, lastRefreshValid := true })).error.word =
        0x00301306 := by decide
theorem witness_SendImageSucceedsOrEndsIdle :
    active.busy = false ∧ active.session = true ∧ active.inputs = [] ∧ active.frameValid = true ∧
      active.frameWidth = active.panelWidth ∧ active.frameHeight = active.panelHeight ∧ active.lastRefreshValid = false := by
  decide
/-- P4: the timed-out poll at step 3, and the timed-out wait of the cleanup. -/
theorem witness_SendImageSucceedsOrEndsIdle_timeout :
    let s := { active with now := 1000, busyTimeout := 10, env := List.replicate 50 lowAns }
    let post := (newEntries s (nextOf (exec .sendImage s))).filter (fun e => e.pos.op = .cleanup)
    cleanupFailed true post = true ∧ outsideWait .cleanup post = cleanupEvents Config.lines s.exported.get true := by decide
theorem witness_PowerOffEndsTheSession :
    let as := List.replicate 14 okAns
    let s := { active with env := as }
    s.busy = false ∧ s.session = true ∧ s.inputs = [] ∧ s.env = as ++ [] ∧ as.length = 14 ∧ (∀ a ∈ as, a.ok = true) ∧
      as[1]? = some okAns ∧ okAns.level = s.params.busyAssertedLevel := by decide
theorem witness_PowerOffInIdleIsInvalid : idle.busy = false ∧ idle.session = false ∧ idle.inputs = [] := by decide
theorem witness_PowerOffAlwaysRunsToCompletion : active.busy = false ∧ active.session = true ∧ active.inputs = [] := by decide
/-- V-C13: two failures, at step 4 (ignored) and at step 6 item 3 (noted). -/
theorem witness_PowerOffAlwaysRunsToCompletion_first :
    let s := { active with env := List.replicate 6 okAns ++ [failAns] ++ List.replicate 4 okAns ++ [failAns, failAns, okAns] }
    (nextOf (exec .powerOff s)).error = { code := .hardwareIo, phase := .shutdown, step := 6, item := 3 } ∧
      notedError true (newEntries s (nextOf (exec .powerOff s))) =
        { code := .hardwareIo, phase := .shutdown, step := 6, item := 3 } := by decide
theorem witness_LinesReleasedOnEveryExit :
    let s := { idlePanel with env := failAns :: List.replicate 1 okAns }
    s.busy = false ∧ s.inputs = [] ∧ isNext (exec .powerOn s) = true ∧
      (nextOf (exec .powerOn s)).error.code.isHardware = true := by decide
/-- The clause for a line that stays exported: `Unexport(27)!Fail`. -/
theorem witness_LinesReleasedOnEveryExit_leak :
    (nextOf (exec .powerOff { active with
      env := List.replicate 11 okAns ++ [failAns] ++ List.replicate 2 okAns })).exported.get .dc = true := by decide
theorem witness_EveryOperationEnds : Instr.channel .powerOff = .hostCommand ∧ active.busy = false ∧ active.inputs = [] := by
  decide
theorem witness_BusyWaitPollsBounded :
    Instr.channel .sendImage = .hostCommand ∧ active.busy = false ∧ active.inputs = [] := by decide
theorem witness_UnansweredWaitTimesOut :
    let s := { active with busyTimeout := 10, env := List.replicate 18 lowAns }
    s.busy = false ∧ s.session = true ∧ s.inputs = [] ∧
      (∀ a ∈ s.env, a.ok = true ∧ a.ms = 0 ∧ a.level ≠ s.params.busyAssertedLevel) ∧
      2 * pollBound s.busyTimeout.toNat + 14 ≤ s.env.length := by decide
/-- Each clause: a match; a timeout exactly at the bound; a poll just before it; a delay. -/
theorem witness_BusyWaitMoves :
    let s := { atCursor .sendImage 3 0 active with busyTimeout := 10, now := 1010, wait := .poll 1000, env := [lowAns] }
    s.seq = { op := .sendImage, step := 3, item := 0 } ∧ s.answer.ok = true ∧
      s.answer.level ≠ s.params.busyAssertedLevel ∧ s.busyTimeout.toNat ≤ s.now + s.answer.ms - 1000 ∧
      ({ s with now := 1009 } : State).now + s.answer.ms - 1000 < s.busyTimeout.toNat ∧
      ({ s with env := [okAns] } : State).answer.level = s.params.busyAssertedLevel := by decide
/-- A failing Get at the deasserted wait, and CLEANUP's wait with what it needs held. -/
theorem witness_BusyWaitMoves_fail :
    let s := { atCursor .sendImage 4 1 active with wait := .poll 0, env := [failAns] }
    let c := { atCursor .cleanup 1 1 active with wait := .poll 0, env := [failAns] }
    s.answer.ok = false ∧ s.move.error.word = 0x00104303 ∧ c.busOpen = true ∧ c.exported.busy = true ∧
      c.move.cleanupErr = true := by decide
theorem witness_PowerOnWireCommandsWrite :
    let s := atCursor .powerOn 3 0 { idle with env := [okAns] }
    s.answer.ok = true ∧ s.seq.op = .powerOn ∧ s.seq.step = 3 ∧ s.seq.item = 0 := by decide
theorem witness_PowerOnWireCommandsFail :
    let s := atCursor .powerOn 5 0 { idle with env := [failAns] }
    s.answer.ok = false ∧ s.seq = { op := .powerOn, step := 5, item := 0 } := by decide
theorem witness_SendImageWireCommandsWrite :
    let s := atCursor .sendImage 2 10 { active with env := [okAns] }
    s.answer.ok = true ∧ s.seq.op = .sendImage ∧ s.seq.step = 2 ∧ s.seq.item = 10 := by decide
theorem witness_SendImageWireCommandsFail :
    let s := atCursor .sendImage 5 0 { active with env := [failAns] }
    s.answer.ok = false ∧ s.seq = { op := .sendImage, step := 5, item := 0 } := by decide
theorem witness_DeepSleepWritesOrIsNoted :
    let s := atCursor .cleanup 1 0 { active with env := [failAns] }
    s.seq.step = 1 ∧ s.seq.item = 0 ∧ s.seq.op = .cleanup ∧ s.answer.ok = false := by decide
theorem witness_WireCommandsStopOffTheirItems :
    idle.seq ≠ { op := .powerOn, step := 3, item := 0 } ∧ idle.seq ≠ { op := .sendImage, step := 2, item := 10 } := by decide
theorem witness_OnlyEncodeWritesTheFrame : isNext (exec .powerOff active) = true ∧ Instr.powerOff ≠ .encode := by decide
theorem witness_OnlyRefreshWritesLastRefresh :
    isNext (exec .powerOff active) = true ∧ Instr.powerOff ≠ .sendImage ∧ Instr.powerOff ≠ .refresh := by decide
/-- SESSION set by the last item of POWER_ON. -/
theorem witness_SessionChangesOnlyByTheController_set :
    let s := atCursor .powerOn 6 0 { idlePanel with env := [okAns] }
    s.session = false ∧ (nextOf (step s)).session = true := by decide
/-- SESSION cleared by the last item of POWER_OFF. -/
theorem witness_SessionChangesOnlyByTheController_clear :
    let s := atCursor .powerOff 7 0 { active with env := [okAns] }
    s.session = true ∧ (nextOf (step s)).session = false := by decide
theorem witness_TimeNeverDecreases : (nextOf (step (lands (.elapse 7) idle))).now = 7 := by decide
theorem witness_StepKeepsLayersCanonical :
    memoriesCanonical active ∧ isNext (step (lands (.write 0 4 0x11) active)) = true := by decide

/-- At an item of POWER_ON. -/
theorem witness_StepKeepsCursorInvariant :
    cursorInvariant (atCursor .powerOn 2 3 idlePanel) ∧ isNext (step (atCursor .powerOn 2 3 idlePanel)) = true :=
  ⟨⟨⟨by decide, by decide⟩, show (actionAt { op := .powerOn, step := 2, item := 3 }).isSome = true by decide⟩, by decide⟩
/-- A frame is held. -/
theorem witness_StepKeepsFrameWhole :
    frameInvariant active ∧ active.frameValid = true ∧ isNext (step (lands (.write 0 4 1) active)) = true := by
  have one : active.frameLength = 1 := by decide
  refine ⟨⟨fun _ => ⟨by decide, fun i h => ?_, fun i h => ?_⟩, fun h => absurd h (by decide),
    fun h => absurd h (by decide)⟩, by decide, by decide⟩
  · obtain rfl : i = 0 := by omega
    exact ⟨0x55, by decide⟩
  · obtain rfl : i = 0 := by omega
    decide
/-- A command that is about to be accepted; no event has been issued. -/
theorem witness_StepKeepsSessionLines :
    linesInvariant (lands (.write 0 4 0x10) idlePanel) ∧ isNext (step (lands (.write 0 4 0x10) idlePanel)) = true := by
  refine ⟨⟨⟨⟨⟨by decide, by decide⟩, trivial⟩, ⟨?_, ?_, ?_⟩, ?_, ?_⟩, ⟨?_, ?_, ?_, ?_, ?_⟩, fun pre e post h =>
    absurd h (by simp [lands, idlePanel, idle, State.reset])⟩, by decide⟩
  all_goals exact fun h => absurd h (by decide)
/-- A refresh was attempted at 1000, and SEND_IMAGE comes again at 181 000. -/
theorem witness_StepKeepsRefreshInterval :
    let e : Entry := { event := .busWrite [0x12, 0x12], outcome := .ok, time := 1000, pos := refreshPos }
    let s := lands (.write 0 4 0x11) { active with now := 181000, lastRefresh := 1000, lastRefreshValid := true, trace := [e] }
    refreshInvariant s ∧ isNext (step s) = true := by
  refine ⟨⟨by decide, fun t h => ?_⟩, by decide⟩
  obtain rfl : 1000 = t := Option.some.inj h
  exact ⟨by decide, by decide, by decide, fun g => absurd g.1 (by decide)⟩
/-- An Active session, with POWER_OFF about to be accepted. -/
theorem witness_StepKeepsTraceAllowed :
    traceInvariant (lands (.write 0 4 0x12) active) ∧ isNext (step (lands (.write 0 4 0x12) active)) = true := by
  refine ⟨⟨⟨by decide, by decide, fun h => absurd h (by decide), by decide⟩, fun e h => ?_⟩, by decide⟩
  exact absurd h (by simp [lands, active, idle, State.reset])
/-- The handles accounted for in a trace in which line 24 was exported, line 17 was not, and CLEANUP has released the reset line. -/
theorem witness_StepKeepsHandlesAccounted :
    let p : Cursor := { op := .powerOn, step := 1, item := 2 }
    let s : State := lands (.elapse 1) { idlePanel with
      exported := { noneExported with reset := true }
      trace := [{ event := .exportLine 24, outcome := .ok, time := 0, pos := p },
        { event := .exportLine 17, outcome := .fail, time := 0, pos := p },
        { event := .setDir 24 .input, outcome := .ok, time := 0, pos := { op := .cleanup, step := 2, item := 0 } }] }
    handlesInvariant s ∧ isNext (step s) = true := by
  refine ⟨⟨fun l => by cases l <;> decide, by decide, fun pre e post h hc => ?_⟩, by decide⟩
  rcases pre with _ | ⟨a, _ | ⟨b, _ | ⟨c, pre⟩⟩⟩ <;> simp [lands] at h
  · simp [← h.1] at hc
  · simp [← h.2.1] at hc
  · obtain ⟨rfl, rfl, rfl, -⟩ := h
    exact ⟨fun n hn => by obtain rfl : 24 = n := Option.some.inj hn; decide, by rintro (h | ⟨_, h⟩) <;> cases h⟩
/-- R52's own example: of a layer byte, bit 7 is the first on the wire. -/
theorem witness_WireBitsInOrder :
    idle.params.wireMsbFirst = true ∧
      idle.busBits [0x01, 0x80] =
        [false, false, false, false, false, false, false, true, true, false, false, false, false, false, false, false] := by
  decide
/-- WIRE_MSB_FIRST = false, and what a SOFT_RESET that succeeds puts on the wire. -/
theorem witness_WireBitsInOrder_reversed :
    let s := { idle with params := { tParams with wireMsbFirst := false }, env := [okAns] }
    s.answer.ok = true ∧ (s.emit (.busWrite [0x0E])).sentBits = [false, true, true, true, false, false, false, false] ∧
      ({ s with env := [failAns] } : State).answer.ok = false := by decide

end Sys2Proof.Tests
end

section
/-! PROOFS. The host's accesses (20_memory.md R42, R45, R46): what a step does with an input that lands, and what an admitted write
does by its offset. Settles O7, O10 and O11. -/

namespace Sys2Proof.Machine

/-! ### An input that lands -/

/-- An input lands when its turn has come or the unit is idle (R50, R58). -/
theorem inputDue_of_head {s : State} {k : Nat} {i : Input} {rest : List Pending}
    (hq : s.inputs = { after := k, input := i } :: rest) (hk : k = 0 ∨ s.busy = false) : s.inputDue = true := by
  simpa [State.inputDue, hq] using hk

/-- An input other than a write of CMD is taken by the state without it. -/
theorem step_eq_takeInput {s : State} {k : Nat} {i : Input} {rest : List Pending} (hp : paramsOk s.params = true)
    (hq : s.inputs = { after := k, input := i } :: rest) (hk : k = 0 ∨ s.busy = false) (hf : fetchInput i = .input i) :
    step s = (s.setInputs rest).takeInput i := by
  simp [step, hp, State.fetch, State.fetched, inputDue_of_head hq hk, hq, hf]

/-- A write of CMD is decoded by the state without it. -/
theorem step_of_cmdWrite {s : State} {k : Nat} {v : Word} {rest : List Pending} (hp : paramsOk s.params = true)
    (hq : s.inputs = { after := k, input := .write 0 4 v } :: rest) (hk : k = 0 ∨ s.busy = false) :
    (∃ op, step s = .next ((s.setInputs rest).hostCommand op)) ∨ step s = .next (s.setInputs rest).illegalCommand := by
  have hf : fetchInput (.write 0 4 v) = .bytes .hostCommand (bytesOfWord v) := rfl
  cases hd : decode .hostCommand (bytesOfWord v) with
  | ok i =>
    have hs : step s = exec i (s.setInputs rest) := by
      simp [step, hp, State.fetch, State.fetched, inputDue_of_head hq hk, hq, hf, hd]
    rw [hs]
    obtain rfl | rfl | rfl | rfl := decodeHost_cases hd
    · exact .inl ⟨.encode, rfl⟩
    · exact .inl ⟨.powerOn, rfl⟩
    · exact .inl ⟨.sendImage, rfl⟩
    · exact .inl ⟨.powerOff, rfl⟩
  | error e =>
    refine .inr ?_
    simp [step, hp, State.fetch, State.fetched, inputDue_of_head hq hk, hq, hf, hd, State.notDecoded]

/-- A write of CMD while BUSY = 1 is dropped, whatever its word (R46). -/
theorem step_of_cmdWrite_busy {s : State} {k : Nat} {v : Word} {rest : List Pending} (hp : paramsOk s.params = true)
    (hq : s.inputs = { after := k, input := .write 0 4 v } :: rest) (hk : k = 0 ∨ s.busy = false) (hb : s.busy = true) :
    step s = .next (s.setInputs rest).dropWrite := by
  have hb' : (s.setInputs rest).busy = true := hb
  obtain ⟨op, hs⟩ | hs := step_of_cmdWrite hp hq hk
  · rw [hs, State.hostCommand, if_pos hb']
  · rw [hs, State.illegalCommand, if_pos hb']

/-- The accesses admitted are those of R42. -/
theorem accessAdmitted_iff (a n : Nat) :
    accessAdmitted a n = true ↔ (n = 4 ∧ a % 4 = 0 ∧ a ≤ 0x2FFFC) ∨ (n = 1 ∧ 0x10000 ≤ a ∧ a ≤ 0x2FFFF) := by
  simp only [accessAdmitted, Bool.and_eq_true, Bool.or_eq_true, decide_eq_true_eq]
  unfold hostSpaceEnd primaryBase
  omega

/-- An admitted write other than of CMD. -/
theorem step_of_write {s : State} {k a n : Nat} {v : Word} {rest : List Pending} (hp : paramsOk s.params = true)
    (hq : s.inputs = { after := k, input := .write a n v } :: rest) (hk : k = 0 ∨ s.busy = false)
    (ha : accessAdmitted a n = true) (h0 : a ≠ 0) : step s = .next ((s.setInputs rest).hostWrite a v) := by
  have hf : fetchInput (.write a n v) = .input (.write a n v) := by
    rcases fetchInput_cases (.write a n v) with ⟨w, hw, -⟩ | hf
    · exact absurd (Input.write.inj hw).1 h0
    · exact hf
  rw [step_eq_takeInput hp hq hk hf, State.takeInput, if_pos ha]

/-! ### A write by its offset -/

/-- The write condition of offset `a` fails: BUSY = 1, or SESSION = 1 for the registers a session uses (R20, R46). -/
def State.writeDropped (a : Nat) (s : State) : Prop :=
  (a ∈ [0x014, 0x018, 0x01C, 0x038] ∧ s.busy = true) ∨
    (a ∈ [0x02C, 0x030, 0x034] ∧ (s.busy = true ∨ s.session = true))

/-- The model's test of an RW register's write condition. -/
theorem writeDropped_iff (a : Nat) (s : State) :
    ((commandOperand a && s.busy) || (sessionOperand a && (s.busy || s.session))) = true ↔ s.writeDropped a := by
  simp [State.writeDropped, commandOperand, sessionOperand, or_assoc]

theorem hostWrite_of_dropped {a : Nat} {s : State} (h : s.writeDropped a) (v : Word) : s.hostWrite a v = s.dropWrite :=
  if_pos ((writeDropped_iff a s).2 h)

theorem hostWrite_of_not_dropped {a : Nat} {s : State} (h : ¬ s.writeDropped a) (v : Word) :
    s.hostWrite a v = s.storeRegister a v :=
  if_neg (mt (writeDropped_iff a s).1 h)

theorem not_writeDropped_of_idle {a : Nat} {s : State} (hb : s.busy = false)
    (h : s.session = false ∨ a ∉ [0x02C, 0x030, 0x034]) : ¬ s.writeDropped a := by
  rintro (⟨-, hb'⟩ | ⟨ha, hb' | hs⟩)
  · simp [hb] at hb'
  · simp [hb] at hb'
  · exact h.elim (by simp [hs]) (absurd ha)

/-- An admitted write of another offset than CMD whose write condition holds. -/
theorem step_of_write_stored {s : State} {k a n : Nat} {v : Word} {rest : List Pending} (hp : paramsOk s.params = true)
    (hq : s.inputs = { after := k, input := .write a n v } :: rest) (hk : k = 0 ∨ s.busy = false)
    (ha : accessAdmitted a n = true) (h0 : a ≠ 0) (hd : ¬ s.writeDropped a) :
    step s = .next ((s.setInputs rest).storeRegister a v) := by
  rw [step_of_write hp hq hk ha h0, hostWrite_of_not_dropped (s := s.setInputs rest) hd]

/-- An offset that no RW register has ignores the store (R45). -/
theorem storeRegister_other {a : Nat} (h : a ∉ [0x014, 0x018, 0x01C, 0x02C, 0x030, 0x034, 0x038]) (v : Word) (s : State) :
    s.storeRegister a v = s := by
  unfold State.storeRegister
  split
  case h_8 => rfl
  all_goals simp at h

/-! ### The obligations -/

/-- Settles O7: a write of CMD always has a step; every other access asks `accessAdmitted`, which is R42. -/
theorem hostAccessesAdmittedExactly : Obligations.HostAccessesAdmittedExactly := by
  intro s k a n v rest i hp hq hk hi
  rw [← accessAdmitted_iff]
  rcases fetchInput_cases i with ⟨w, rfl, -⟩ | hf
  · obtain hr | hw := hi
    · cases hr
    obtain ⟨rfl, rfl, -⟩ := Input.write.inj hw
    refine ⟨fun _ => ?_, fun h => absurd (by decide) h⟩
    obtain ⟨op, hs⟩ | hs := step_of_cmdWrite hp hq hk
    · exact ⟨_, hs⟩
    · exact ⟨_, hs⟩
  · rw [step_eq_takeInput hp hq hk hf]
    obtain rfl | rfl := hi
    · exact ⟨fun h => ⟨_, if_pos h⟩, fun h => if_neg h⟩
    · exact ⟨fun h => ⟨_, if_pos h⟩, fun h => if_neg h⟩

/-- Settles O10: CMD is dropped by the command it would start, every other register by `hostWrite`. -/
theorem droppedWritesOnlySetHazard : Obligations.DroppedWritesOnlySetHazard := by
  intro s k a v rest hp hq hk h
  rcases eq_or_ne a 0 with rfl | h0
  · have hb : s.busy = true := by simpa using h
    exact step_of_cmdWrite_busy hp hq hk hb
  · have hd : (s.setInputs rest).writeDropped a :=
      h.imp_left fun ⟨ha, hb⟩ => ⟨(List.mem_cons.1 ha).resolve_left h0, hb⟩
    have ha : accessAdmitted a 4 = true := by
      simp only [State.writeDropped, List.mem_cons, List.not_mem_nil, or_false] at hd
      rw [accessAdmitted_iff]
      omega
    rw [step_of_write hp hq hk ha h0, hostWrite_of_dropped hd]
    rfl

/-- Settles O11: past its write condition a write is `storeRegister`, whose cases are the RW registers. -/
theorem admittedWritesStore : Obligations.AdmittedWritesStore := by
  intro s k a n v rest hp hq hk ha
  rw [← accessAdmitted_iff] at ha
  have stored (hb : s.busy = false) (h0 : a ≠ 0) (h : s.session = false ∨ a ∉ [0x02C, 0x030, 0x034]) :=
    step_of_write_stored hp hq hk ha h0 (not_writeDropped_of_idle hb h)
  refine ⟨?_, ?_, ?_, ?_, ?_, ?_, ?_, fun h => ?_⟩
  · rintro hb rfl; exact stored hb (by decide) (.inr (by decide))
  · rintro hb rfl; exact stored hb (by decide) (.inr (by decide))
  · rintro hb rfl; exact stored hb (by decide) (.inr (by decide))
  · rintro hb rfl; exact stored hb (by decide) (.inr (by decide))
  · rintro hb hs rfl; exact stored hb (by decide) (.inl hs)
  · rintro hb hs rfl; exact stored hb (by decide) (.inl hs)
  · rintro hb hs rfl
    rw [stored hb (by decide) (.inl hs), BitVec.truncate_eq_setWidth, BitVec.setWidth_eq_extractLsb' (by decide)]
    rfl
  · simp only [List.mem_cons, List.not_mem_nil, or_false, not_or] at h
    have h0 : a ≠ 0 := h.1
    have hd : ¬ s.writeDropped a := by
      simp only [State.writeDropped, List.mem_cons, List.not_mem_nil, or_false]
      omega
    rw [step_of_write_stored hp hq hk ha h0 hd, storeRegister_other (by simp; omega)]
    rfl

end Sys2Proof.Machine
end

section
/-! PROOFS. ENCODE's frame (41_frame_packer.md R88): its moves issue PixReads only, leave the session's side of the state alone,
and go the same way whatever LAST_REFRESH holds. Settles O24. -/

namespace Sys2Proof.Machine

/-! ### What ENCODE's moves leave alone -/

/-- No controller operation runs: the moves to come are ENCODE's or the end of an operation. -/
def State.packing (s : State) : Prop := s.seq.op = .encode ∨ s.seq.op = .none

/-- From `s` to `t` the session's side has stayed and the trace has grown by PixReads only (R88). -/
def onlyReads (s t : State) : Prop :=
  t.sessionSide = s.sessionSide ∧ ∃ es, t.trace = s.trace ++ es ∧ ∀ e ∈ es, isPixRead e = true

theorem onlyReads_of_same {s t : State} (hs : t.sessionSide = s.sessionSide) (ht : t.trace = s.trace) : onlyReads s t :=
  ⟨hs, [], by simp [ht], by simp⟩

theorem onlyReads_trans {s t u : State} (h₁ : onlyReads s t) (h₂ : onlyReads t u) : onlyReads s u := by
  obtain ⟨hs₁, es₁, ht₁, he₁⟩ := h₁
  obtain ⟨hs₂, es₂, ht₂, he₂⟩ := h₂
  refine ⟨hs₂.trans hs₁, es₁ ++ es₂, by rw [ht₂, ht₁, List.append_assoc], fun e he => ?_⟩
  exact (List.mem_append.1 he).elim (he₁ e) (he₂ e)

/-- What has been read is what `newEntries` shows. -/
theorem newEntries_of_onlyReads {s t : State} (h : onlyReads s t) :
    t.trace = s.trace ++ newEntries s t ∧ ∀ e ∈ newEntries s t, isPixRead e = true := by
  obtain ⟨-, es, ht, he⟩ := h
  have hn : newEntries s t = es := by simp [newEntries, ht]
  rw [hn]
  exact ⟨ht, he⟩

/-- An error of ENCODE ends it: no cleanup follows (R122). -/
theorem raise_encode (e : ErrorCode) (j k : Nat) (s : State) :
    s.raise e .encode j k = (s.setError e .encode j k).endOperation := by
  rcases raise_cases s e .encode j k with ⟨-, hp, -⟩ | h
  · simp at hp
  · exact h

@[simp] theorem emit_sessionSide (e : Event) (s : State) : (s.emit e).sessionSide = s.sessionSide := by
  simp [State.sessionSide]

theorem emit_pixRead_onlyReads (x y : Nat) (s : State) : onlyReads s (s.emit (.pixRead x y)) :=
  ⟨emit_sessionSide .., _, State.emit_trace .., by simp [isPixRead]⟩

/-- ACC and the cursor move on, or a group is stored: nothing of the session changes, no event is issued. -/
theorem pixelOk_keeps (b : Nat) (s : State) :
    (s.pixelOk b).sessionSide = s.sessionSide ∧ (s.pixelOk b).trace = s.trace ∧
      (s.pixelOk b).env = s.env ∧ (s.pixelOk b).inputs = s.inputs ∧ (s.pixelOk b).busy = s.busy := by
  unfold State.pixelOk
  split
  · exact ⟨rfl, rfl, rfl, rfl, rfl⟩
  · unfold State.storeGroup
    split
    · exact ⟨rfl, rfl, rfl, rfl, rfl⟩
    · split <;> exact ⟨rfl, rfl, rfl, rfl, rfl⟩

theorem pixelOk_packing (b : Nat) {s : State} (h : s.packing) : (s.pixelOk b).packing := by
  unfold State.pixelOk
  split
  · exact h
  · unfold State.storeGroup
    split
    · exact h
    · split
      · exact h
      · exact .inl rfl

theorem encodePixel_packing {s : State} (h : s.packing) : s.encodePixel.packing := by
  unfold State.encodePixel
  split
  · exact pixelOk_packing _ (by simpa [State.packing] using h)
  · exact .inr (by rw [State.pixelFail, raise_encode]; rfl)

theorem encodePixel_onlyReads (s : State) : onlyReads s s.encodePixel := by
  have hread := emit_pixRead_onlyReads s.pixel.x s.pixel.y s
  unfold State.encodePixel
  split
  · obtain ⟨hs, ht, -⟩ := pixelOk_keeps (s.brightness s.answer) (s.emit (.pixRead s.pixel.x s.pixel.y))
    exact onlyReads_trans hread (onlyReads_of_same hs ht)
  · refine onlyReads_trans hread (onlyReads_of_same ?_ ?_) <;> (rw [State.pixelFail, raise_encode]; rfl)

/-- A move of ENCODE goes on with ENCODE or ends it, and reads pixels only. -/
theorem encodeMove_packing {s : State} (h : s.packing) : s.encodeMove.packing ∧ onlyReads s s.encodeMove := by
  unfold State.encodeMove
  split
  · unfold State.encodeGeometry
    split
    · exact ⟨.inl rfl, onlyReads_of_same rfl rfl⟩
    · rw [raise_encode]; exact ⟨.inr rfl, onlyReads_of_same rfl rfl⟩
  · unfold State.encodeDimensions
    split
    · exact ⟨.inl rfl, onlyReads_of_same rfl rfl⟩
    · rw [raise_encode]; exact ⟨.inr rfl, onlyReads_of_same rfl rfl⟩
  · exact ⟨encodePixel_packing h, encodePixel_onlyReads s⟩
  · exact ⟨.inl rfl, onlyReads_of_same rfl rfl⟩
  · exact ⟨.inr rfl, onlyReads_of_same rfl rfl⟩
  · exact ⟨.inr rfl, onlyReads_of_same rfl rfl⟩

theorem move_packing {s : State} (h : s.packing) : s.move.packing ∧ onlyReads s s.move := by
  have hm : s.move = s.encodeMove ∨ s.move = s.endOperation := by
    unfold State.move
    rcases h with h | h <;> simp [h]
  rcases hm with hm | hm <;> rw [hm]
  · exact encodeMove_packing h
  · exact ⟨.inr rfl, onlyReads_of_same rfl rfl⟩

theorem tick_onlyReads (s : State) : onlyReads s s.tick := by
  unfold State.tick
  split <;> exact onlyReads_of_same rfl rfl

/-- The moves of ENCODE, however many, for every queue of inputs and every answer. -/
theorem run_onlyReads (n : Nat) {s : State} (h : s.packing) : onlyReads s (State.run n s) := by
  refine (run_induction (P := fun t => t.packing ∧ onlyReads s t) ?_ ?_ n ⟨h, onlyReads_of_same rfl rfl⟩).2
  · rintro t ⟨hp, hr⟩
    exact ⟨by simpa [State.packing] using hp, onlyReads_trans hr (tick_onlyReads t)⟩
  · rintro t - ⟨hp, hr⟩
    obtain ⟨hp', hr'⟩ := move_packing hp
    exact ⟨hp', onlyReads_trans hr hr'⟩

theorem hostCommand_encode_onlyReads (s : State) : onlyReads s (s.hostCommand .encode) := by
  unfold State.hostCommand
  split
  · exact onlyReads_of_same rfl rfl
  · exact onlyReads_trans (onlyReads_of_same rfl rfl) (run_onlyReads _ (.inl rfl))

/-! ### ENCODE does not read LAST_REFRESH -/

/-- The same state with another LAST_REFRESH. -/
def State.withLastRefresh (v : BitVec 64) (b : Bool) (s : State) : State := { s with lastRefresh := v, lastRefreshValid := b }

section
variable (v : BitVec 64) (b : Bool) (s : State)

theorem withLastRefresh_seq : (s.withLastRefresh v b).seq = s.seq := rfl

theorem emit_withLastRefresh (e : Event) : (s.withLastRefresh v b).emit e = (s.emit e).withLastRefresh v b := by
  unfold State.emit State.takeAnswer State.withLastRefresh
  dsimp only
  split <;> rfl

theorem tick_withLastRefresh : (s.withLastRefresh v b).tick = s.tick.withLastRefresh v b := by
  unfold State.tick State.withLastRefresh
  dsimp only
  split <;> rfl

theorem pixelOk_withLastRefresh (c : Nat) : (s.withLastRefresh v b).pixelOk c = (s.pixelOk c).withLastRefresh v b := by
  unfold State.pixelOk State.storeGroup
  simp only [apply_ite (State.withLastRefresh v b)]
  rfl

theorem pixelFail_withLastRefresh : (s.withLastRefresh v b).pixelFail = s.pixelFail.withLastRefresh v b := rfl

theorem encodePixel_withLastRefresh : (s.withLastRefresh v b).encodePixel = s.encodePixel.withLastRefresh v b := by
  have hread := emit_withLastRefresh v b s (.pixRead s.pixel.x s.pixel.y)
  unfold State.encodePixel
  rw [apply_ite (State.withLastRefresh v b), ← pixelOk_withLastRefresh, ← pixelFail_withLastRefresh, ← hread]
  rfl

theorem encodeGeometry_withLastRefresh :
    (s.withLastRefresh v b).encodeGeometry = s.encodeGeometry.withLastRefresh v b := by
  unfold State.encodeGeometry
  rw [apply_ite (State.withLastRefresh v b)]
  rfl

theorem encodeDimensions_withLastRefresh :
    (s.withLastRefresh v b).encodeDimensions = s.encodeDimensions.withLastRefresh v b := by
  unfold State.encodeDimensions
  rw [apply_ite (State.withLastRefresh v b)]
  rfl

theorem encodeMove_withLastRefresh : (s.withLastRefresh v b).encodeMove = s.encodeMove.withLastRefresh v b := by
  unfold State.encodeMove
  rw [withLastRefresh_seq]
  split
  · exact encodeGeometry_withLastRefresh v b s
  · exact encodeDimensions_withLastRefresh v b s
  · exact encodePixel_withLastRefresh v b s
  · rfl
  · rfl
  · rfl

theorem move_withLastRefresh {s : State} (h : s.packing) : (s.withLastRefresh v b).move = s.move.withLastRefresh v b := by
  unfold State.move
  rw [withLastRefresh_seq]
  rcases h with h | h <;> rw [h]
  · exact encodeMove_withLastRefresh v b s
  · rfl

/-- The same moves, whatever LAST_REFRESH holds. -/
theorem run_withLastRefresh (n : Nat) {s : State} (h : s.packing) :
    State.run n (s.withLastRefresh v b) = (State.run n s).withLastRefresh v b := by
  induction n generalizing s with
  | zero => rfl
  | succ n ih =>
    have ht : s.tick.packing := by simpa [State.packing] using h
    unfold State.run
    rw [apply_ite (State.withLastRefresh v b), ← ih (move_packing ht).1, ← move_withLastRefresh v b ht,
      ← tick_withLastRefresh]
    rfl

theorem hostCommand_encode_withLastRefresh :
    (s.withLastRefresh v b).hostCommand .encode = (s.hostCommand .encode).withLastRefresh v b := by
  have hrun : State.run s.moveBound ((s.withLastRefresh v b).acceptCommand .encode 1) =
      (State.run s.moveBound (s.acceptCommand .encode 1)).withLastRefresh v b :=
    run_withLastRefresh v b s.moveBound (s := s.acceptCommand .encode 1) (.inl rfl)
  unfold State.hostCommand
  rw [apply_ite (State.withLastRefresh v b)]
  exact congrArg (ite (s.busy = true) (s.dropWrite.withLastRefresh v b)) hrun

end

/-! ### The obligation -/

/-- Settles O24: ENCODE's moves read pixels only (`hostCommand_encode_onlyReads`), no move changes the host's side, and the moves
commute with a change of LAST_REFRESH. -/
theorem encodeLeavesTheSessionAlone : Obligations.EncodeLeavesTheSessionAlone := by
  intro s
  have hreads := hostCommand_encode_onlyReads s
  obtain ⟨htrace, hnew⟩ := newEntries_of_onlyReads hreads
  exact ⟨s.hostCommand .encode, rfl, hreads.1, hostCommand_hostSide .encode s, htrace, hnew,
    fun v b => congrArg Host.Outcome.next (hostCommand_encode_withLastRefresh v b s)⟩

end Sys2Proof.Machine
end

section
/-! PROOFS. The order of ENCODE's reads (41_frame_packer.md R81, R82): while every read succeeds, the pixel cursor walks the raster
and each move reads the next pixel. Settles O22. -/

namespace Sys2Proof.Machine

/-! ### The raster -/

/-- The event that reads pixel `k` of a raster of width `w` (R82). -/
def rasterRead (w k : Nat) : Event := .pixRead (k % w) (k / w)

/-- The events issued so far. -/
def State.events (s : State) : List Event := s.trace.map Entry.event

/-- ENCODE is about to read pixel `k`, counted in raster order: `k = y*W + x` at a place inside the image (R19, R82). -/
structure AtPixel (k : Nat) (s : State) : Prop where
  busy : s.busy = true
  inputs : s.inputs = []
  seq : s.seq = { op := .encode, step := 3, item := 0 }
  width : s.encWidth.toNat % 8 = 0
  row : s.pixel.y < s.encHeight.toNat
  group : s.pixel.g < s.encWidth.toNat / 8
  bit : s.pixel.n < 8
  index : k = s.pixel.y * s.encWidth.toNat + s.pixel.x

/-- ENCODE has read the last pixel (R81 step 4). -/
structure PixelsRead (s : State) : Prop where
  busy : s.busy = true
  inputs : s.inputs = []
  seq : s.seq = { op := .encode, step := 4, item := 0 }

/-- A valid geometry (R78) has at most 8*15000 pixels. -/
theorem geometryValid_iff (w h : Nat) : geometryValid w h = true ↔ 1 ≤ w ∧ 1 ≤ h ∧ w % 8 = 0 ∧ w * h ≤ 120000 := by
  simp only [geometryValid, Bool.and_eq_true, decide_eq_true_eq, and_assoc]
  exact Iff.rfl

theorem PixelCursor.x_eq (p : PixelCursor) : p.x = 8 * p.g + p.n := rfl

theorem AtPixel.x_lt {k : Nat} {s : State} (h : AtPixel k s) : s.pixel.x < s.encWidth.toNat := by
  have hg := h.group
  have hn := h.bit
  rw [PixelCursor.x_eq]
  omega

theorem AtPixel.lt_pixels {k : Nat} {s : State} (h : AtPixel k s) : k < s.encWidth.toNat * s.encHeight.toNat := by
  have hx := h.x_lt
  calc k = s.pixel.y * s.encWidth.toNat + s.pixel.x := h.index
    _ < (s.pixel.y + 1) * s.encWidth.toNat := by rw [Nat.succ_mul]; omega
    _ ≤ s.encHeight.toNat * s.encWidth.toNat := Nat.mul_le_mul_right _ h.row
    _ = s.encWidth.toNat * s.encHeight.toNat := Nat.mul_comm ..

/-- The read issued at pixel `k` is the raster's. -/
theorem AtPixel.read_eq {k : Nat} {s : State} (h : AtPixel k s) :
    Event.pixRead s.pixel.x s.pixel.y = rasterRead s.encWidth.toNat k := by
  have hx := h.x_lt
  have hw : 0 < s.encWidth.toNat := by omega
  rw [rasterRead, h.index, Nat.mul_comm, Nat.mul_add_mod, Nat.mod_eq_of_lt hx, Nat.mul_add_div hw, Nat.div_eq_of_lt hx,
    Nat.add_zero]

/-! ### One read -/

/-- The next pixel in raster order, or the end of the reads after the last. -/
def nextPixel (k : Nat) (s t : State) : Prop :=
  AtPixel (k + 1) t ∨ (k + 1 = s.encWidth.toNat * s.encHeight.toNat ∧ PixelsRead t)

/-- After the last bit of a group: the next group of the row, the first of the next row, or the end of the reads. -/
theorem storeGroup_nextPixel {k : Nat} {s : State} (h : AtPixel k s) (hlast : s.pixel.n = 7) (acc : Byte) :
    nextPixel k s (s.storeGroup acc) := by
  obtain ⟨hb, hi, hseq, hw, hy, hg, -, hk⟩ := h
  rw [PixelCursor.x_eq] at hk
  have hrow : (s.pixel.y + 1) * s.encWidth.toNat = s.pixel.y * s.encWidth.toNat + s.encWidth.toNat := Nat.succ_mul ..
  unfold State.storeGroup
  split
  case isTrue hg' =>
    refine .inl ⟨hb, hi, hseq, hw, hy, hg', Nat.succ_pos 7, ?_⟩
    show k + 1 = s.pixel.y * s.encWidth.toNat + (8 * (s.pixel.g + 1) + 0)
    omega
  case isFalse hg' =>
    have hedge : s.pixel.g + 1 = s.encWidth.toNat / 8 := Nat.le_antisymm hg (Nat.not_lt.1 hg')
    have hend : k + 1 = (s.pixel.y + 1) * s.encWidth.toNat := by omega
    split
    case isTrue hy' => exact .inl ⟨hb, hi, hseq, hw, hy', Nat.zero_lt_of_lt hg, Nat.succ_pos 7, hend⟩
    case isFalse hy' =>
      have hbottom : s.pixel.y + 1 = s.encHeight.toNat := by omega
      exact .inr ⟨by rw [hend, hbottom, Nat.mul_comm], hb, hi, rfl⟩

theorem pixelOk_nextPixel {k : Nat} {s : State} (h : AtPixel k s) (b : Nat) : nextPixel k s (s.pixelOk b) := by
  have hn := h.bit
  unfold State.pixelOk
  split
  case isTrue hn' =>
    exact .inl ⟨h.busy, h.inputs, h.seq, h.width, h.row, h.group, hn', congrArg (· + 1) h.index⟩
  case isFalse hn' =>
    have hfull : ¬ s.pixel.n + 1 < 8 := hn'
    exact storeGroup_nextPixel h (by omega) _

theorem move_of_encode {s : State} {j : Nat} (h : s.seq = { op := .encode, step := j, item := 0 }) :
    s.move = s.encodeMove := by
  simp [State.move, h]

/-- A read that succeeds is the raster's read of pixel `k`, and takes one answer. -/
theorem AtPixel.move {k : Nat} {s : State} {a : Answer} {rest : List Answer} (h : AtPixel k s) (henv : s.env = a :: rest)
    (ha : a.ok = true) :
    nextPixel k s s.move ∧ s.move.env = rest ∧ s.move.events = s.events ++ [rasterRead s.encWidth.toNat k] := by
  have hans : s.answer = a := by simp [State.answer, henv]
  have hemit : (s.emit (rasterRead s.encWidth.toNat k)).env = rest := by simp [State.emit, State.takeAnswer, henv]
  have hmove : s.move = (s.emit (rasterRead s.encWidth.toNat k)).pixelOk (s.brightness a) := by
    rw [move_of_encode h.seq, ← h.read_eq]
    simp [State.encodeMove, h.seq, State.encodePixel, hans, ha]
  have hat : AtPixel k (s.emit (rasterRead s.encWidth.toNat k)) := by
    obtain ⟨hb, hi, hseq, hw, hy, hg, hn, hk⟩ := h
    constructor <;> simpa
  obtain ⟨-, htrace, henv', -⟩ := pixelOk_keeps (s.brightness a) (s.emit (rasterRead s.encWidth.toNat k))
  rw [hmove]
  refine ⟨by simpa [nextPixel] using pixelOk_nextPixel hat (s.brightness a), henv'.trans hemit, ?_⟩
  simp [State.events, htrace]

/-! ### The moves of a whole ENCODE -/

/-- Past the reads, the last two moves commit the frame and issue nothing. -/
theorem run_of_pixelsRead (n : Nat) {s : State} (h : PixelsRead s) :
    (State.run (n + 2) s).frameValid = true ∧ (State.run (n + 2) s).events = s.events := by
  have h4 : s.move = s.encodeSecondary := by simp [move_of_encode h.seq, State.encodeMove, h.seq]
  have h5 : s.encodeSecondary.move = s.encodeSecondary.encodeCommit := rfl
  have hb : s.encodeSecondary.busy = true := h.busy
  have hi : s.encodeSecondary.inputs = [] := h.inputs
  have hend : State.run (n + 2) s = s.encodeSecondary.encodeCommit := by
    rw [run_succ _ h.busy h.inputs, h4, run_succ _ hb hi, h5, run_of_notBusy _ rfl]
  rw [hend]
  exact ⟨rfl, rfl⟩

/-- From pixel `k` on, one move for each answer left reads the rest of the raster in order. -/
theorem run_of_atPixel (n : Nat) {as rest : List Answer} {k : Nat} {s : State} (h : AtPixel k s) (henv : s.env = as ++ rest)
    (hok : ∀ a ∈ as, a.ok = true) (hlen : k + as.length = s.encWidth.toNat * s.encHeight.toNat) :
    (State.run (as.length + (n + 2)) s).frameValid = true ∧
      (State.run (as.length + (n + 2)) s).events =
        s.events ++ (List.range' k as.length).map (rasterRead s.encWidth.toNat) := by
  induction as generalizing k s with
  | nil => exact absurd hlen (Nat.ne_of_lt h.lt_pixels)
  | cons a as ih =>
    obtain ⟨ha, hok'⟩ := List.forall_mem_cons.1 hok
    obtain ⟨hnext, henv', hev⟩ := h.move henv ha
    have hW : s.move.encWidth = s.encWidth := congrArg HostSide.encWidth (move_hostSide s)
    have hH : s.move.encHeight = s.encHeight := congrArg HostSide.encHeight (move_hostSide s)
    rw [List.length_cons] at hlen
    have hrun : State.run ((a :: as).length + (n + 2)) s = State.run (as.length + (n + 2)) s.move := by
      rw [List.length_cons, Nat.add_right_comm, run_succ _ h.busy h.inputs]
    rw [hrun, List.length_cons, List.range'_succ, List.map_cons]
    rcases hnext with hat | ⟨hlast, hread⟩
    · have := ih hat henv' hok' (by rw [hW, hH]; omega)
      rw [hev, hW] at this
      simpa using this
    · obtain rfl : as = [] := List.eq_nil_of_length_eq_zero (by omega)
      have := run_of_pixelsRead n hread
      rw [hev] at this
      simpa using this

/-- ENCODE accepted, with its geometry checked (R81 step 2). -/
def State.geometryPassed (s : State) : State := ({ s.acceptCommand .encode 1 with frameValid := false }).encodeStep 2

/-- ENCODE with its dimensions checked too, before its first read (R81 step 3). -/
def State.readsBegin (s : State) : State :=
  ({ s.geometryPassed with pixel := { y := 0, g := 0, n := 0, acc := 0 } }).encodeStep 3

/-- The two moves that lead an accepted ENCODE to its first read (R78, R79). -/
theorem run_accepted (n : Nat) {s : State} (hi : s.inputs = [])
    (hg : geometryValid s.encWidth.toNat s.encHeight.toNat = true) (hw : s.srcWidth = s.encWidth.toNat)
    (hh : s.srcHeight = s.encHeight.toNat) :
    State.run (n + 2) (s.acceptCommand .encode 1) = State.run n s.readsBegin := by
  have h1 : (s.acceptCommand .encode 1).move = s.geometryPassed := if_pos hg
  have h2 : s.geometryPassed.move = s.readsBegin := if_pos ⟨hw, hh⟩
  calc State.run (n + 2) (s.acceptCommand .encode 1)
      = State.run (n + 1) (s.acceptCommand .encode 1).move := run_succ (n + 1) rfl hi
    _ = State.run n s.geometryPassed.move := by rw [h1]; exact run_succ n rfl hi
    _ = State.run n s.readsBegin := by rw [h2]

theorem atPixel_readsBegin {s : State} (hi : s.inputs = [])
    (hg : geometryValid s.encWidth.toNat s.encHeight.toNat = true) : AtPixel 0 s.readsBegin := by
  obtain ⟨hw, hh, h8, -⟩ := (geometryValid_iff ..).1 hg
  have hgroup : 0 < s.encWidth.toNat / 8 := by omega
  exact ⟨rfl, hi, rfl, h8, hh, hgroup, Nat.succ_pos 7, (Nat.zero_mul _).symm⟩

/-- Two checks, the reads, two last moves: within the bound. -/
theorem moveBound_of_geometryValid {s : State} (hg : geometryValid s.encWidth.toNat s.encHeight.toNat = true) :
    ∃ n, s.moveBound = s.encWidth.toNat * s.encHeight.toNat + (n + 2) + 2 := by
  obtain ⟨-, -, -, hle⟩ := (geometryValid_iff ..).1 hg
  refine ⟨s.moveBound - (s.encWidth.toNat * s.encHeight.toNat + 4), ?_⟩
  unfold State.moveBound
  omega

/-! ### The obligation -/

/-- Settles O22: past the checks the cursor stands at pixel 0 (`atPixel_readsBegin`), and the moves read the raster from there
(`run_of_atPixel`). -/
theorem encodeReadsEachPixelOnceInOrder : Obligations.EncodeReadsEachPixelOnceInOrder := by
  intro s as rest hb hi hg hw hh henv hlen hok
  obtain ⟨n, hn⟩ := moveBound_of_geometryValid hg
  have hrun : s.hostCommand .encode = State.run (as.length + (n + 2)) s.readsBegin := by
    rw [State.hostCommand, if_neg (by simp [hb]), hn, ← hlen]
    exact run_accepted _ hi hg hw hh
  obtain ⟨hvalid, hevents⟩ :=
    run_of_atPixel n (atPixel_readsBegin hi hg) henv hok (by rw [Nat.zero_add]; exact hlen)
  rw [← hrun, hlen, ← List.range_eq_range'] at hevents
  exact ⟨s.hostCommand .encode, rfl, hrun ▸ hvalid, hevents⟩

end Sys2Proof.Machine
end

section
/-! PROOFS. The encoding (30_encoding.md R64 to R73): decoding and encoding are inverse to each other, and the words of the
tables. Settles O1, O2 and O3. -/

namespace Sys2Proof.Machine

/-! ### Host commands -/

/-- A word is written as the four bytes it is put together from (R43). -/
theorem bytesOfWord_wordOfBytes (b0 b1 b2 b3 : Byte) : bytesOfWord (wordOfBytes b0 b1 b2 b3) = [b0, b1, b2, b3] := by
  have byte {k : Nat} {b : Byte} (hb : ∀ i < 8, (wordOfBytes b0 b1 b2 b3).getLsbD (k + i) = b.getLsbD i) :
      (wordOfBytes b0 b1 b2 b3).extractLsb' k 8 = b :=
    BitVec.eq_of_getLsbD_eq fun i hi => by simpa [hi] using hb i hi
  unfold bytesOfWord
  rw [byte (b := b0), byte (b := b1), byte (b := b2), byte (b := b3)]
  all_goals
    intro i hi
    simp only [wordOfBytes, BitVec.getLsbD_append]
    grind

/-- A word whose bits 31:8 are 0 is its low byte (R65). -/
theorem word_eq_of_low_byte {v : Word} {k : Nat} (hk : k < 256) (hhigh : v.extractLsb' 8 24 = 0)
    (hlow : (v.extractLsb' 0 8).toNat = k) : v = BitVec.ofNat 32 k := by
  have h8 := congrArg BitVec.toNat hhigh
  have hv := v.isLt
  simp only [BitVec.extractLsb'_toNat, Nat.shiftRight_eq_div_pow] at h8 hlow
  apply BitVec.eq_of_toNat_eq
  rw [BitVec.toNat_ofNat]
  simp at h8
  omega

/-- A command word that decodes is the one word of R66 for its command. -/
theorem bytesOfWord_of_decodeCommand {v : Word} {i : Instr} (h : decodeCommand v = .ok i) :
    i.wellFormed = true ∧ i.channel = .hostCommand ∧ encode i = bytesOfWord v := by
  unfold decodeCommand at h
  split at h
  · cases h
  · rename_i hhigh
    have word {k : Nat} (hk : k < 256) := word_eq_of_low_byte (v := v) hk (not_not.1 hhigh)
    split at h
    · rename_i hlow; cases h; rw [word (by decide) hlow]; exact ⟨rfl, rfl, rfl⟩
    · rename_i hlow; cases h; rw [word (by decide) hlow]; exact ⟨rfl, rfl, rfl⟩
    · rename_i hlow; cases h; rw [word (by decide) hlow]; exact ⟨rfl, rfl, rfl⟩
    · rename_i hlow; cases h; rw [word (by decide) hlow]; exact ⟨rfl, rfl, rfl⟩
    · cases h

theorem encode_of_decodeHost {bytes : List Byte} {i : Instr} (h : decodeHost bytes = .ok i) :
    i.wellFormed = true ∧ i.channel = .hostCommand ∧ encode i = bytes := by
  unfold decodeHost at h
  split at h
  · rw [← bytesOfWord_wordOfBytes]; exact bytesOfWord_of_decodeCommand h
  · cases h

/-! ### Wire commands and payloads -/

/-- A byte is known by its number. -/
theorem byte_eq_of_toNat {b : Byte} {k : Nat} (h : b.toNat = k) : b = BitVec.ofNat 8 k := by
  rw [← h, BitVec.ofNat_toNat, BitVec.setWidth_eq]

/-- A wire command that decodes has the bytes its row of R68 lists, in each of the formats W1, W2 and W3. -/
theorem encode_of_decodeWire {bytes : List Byte} {i : Instr} (h : decodeWire bytes = .ok i) :
    i.wellFormed = true ∧ i.channel = .wireCommand ∧ encode i = bytes := by
  unfold decodeWire at h
  split at h
  · unfold decodeW1 at h
    split at h <;> cases h <;> (rename_i h0; rw [byte_eq_of_toNat h0]; exact ⟨rfl, rfl, rfl⟩)
  · unfold decodeW2 at h
    split at h <;> cases h
    case h_1 h0 => rw [byte_eq_of_toNat h0]; exact ⟨rfl, rfl, rfl⟩
    all_goals rename_i h0 h1; rw [byte_eq_of_toNat h0, byte_eq_of_toNat h1]; exact ⟨rfl, rfl, rfl⟩
  · unfold decodeW3 at h
    split at h <;> cases h
    rename_i h0 h1 h2
    rw [byte_eq_of_toNat h0, byte_eq_of_toNat h1, byte_eq_of_toNat h2]
    exact ⟨rfl, rfl, rfl⟩
  · cases h

theorem encode_of_decodePayload {bytes : List Byte} {i : Instr} (h : decodePayload bytes = .ok i) :
    i.wellFormed = true ∧ i.channel = .wirePayload ∧ encode i = bytes := by
  unfold decodePayload at h
  split at h
  · rename_i hlen; cases h; exact ⟨decide_eq_true hlen, rfl, rfl⟩
  · cases h

/-! ### The obligations -/

/-- Settles O1: each row of R66 and R68 decodes to its instruction, for every operand. -/
theorem decodeOfEncodeIsIdentity : Obligations.DecodeOfEncodeIsIdentity := by
  intro i hwf
  cases i with
  | layerData data => exact if_pos (of_decide_eq_true hwf)
  | tempComp code => simp [Instr.channel, encode, decode, decodeWire, decodeW2]
  | encode | powerOn | sendImage | powerOff => decide
  | softReset | activateA | activateB | panelSettings | deepSleep => decide
  | layerSelPrimary | layerSelSecondary | powerOnDisplay | refresh => decide

/-- Settles O2: one decoder for each channel, and each accepts the bytes of its rows alone. -/
theorem decodedBytesAreTheEncoding : Obligations.DecodedBytesAreTheEncoding := by
  intro c bytes i h
  cases c with
  | hostCommand => exact encode_of_decodeHost h
  | wireCommand => exact encode_of_decodeWire h
  | wirePayload => exact encode_of_decodePayload h

/-- Settles O3: the words of the tables, read by the decoder. -/
theorem tableWordsDecode : Obligations.TableWordsDecode := by
  unfold Obligations.TableWordsDecode
  decide

end Sys2Proof.Machine
end

section
/-! PROOFS. The controller's items as one list for each operation, and what a move does at an item, said once: the test, the
event with its outcome, and where the cursor goes (R92, R94, R95, R97, R101, R104). -/

namespace Sys2Proof.Machine

/-! ### The items of an operation, in order -/

/-- The items of an operation with their cursor positions, in the order of its step table. -/
def Op.script (op : Op) : List (Cursor × Action) :=
  op.table.flatMap fun p => p.2.zipIdx.map fun q => ({ op := op, step := p.1, item := q.2 }, q.1)

theorem mem_of_stepItems {t : List (Nat × List Action)} {step item : Nat} {a : Action}
    (h : (stepItems t step)[item]? = some a) : ∃ p ∈ t, p.1 = step ∧ p.2[item]? = some a := by
  induction t with
  | nil => simp [stepItems] at h
  | cons p r ih =>
    unfold stepItems at h
    split at h
    · exact ⟨p, List.mem_cons_self, by simp_all, h⟩
    · obtain ⟨q, hq, hs⟩ := ih h
      exact ⟨q, List.mem_cons_of_mem _ hq, hs⟩

/-- The item at a cursor is one of its operation's list, at that position. -/
theorem mem_script {c : Cursor} {a : Action} (h : actionAt c = some a) : (c, a) ∈ c.op.script := by
  obtain ⟨⟨n, items⟩, hp, hn, hi⟩ := mem_of_stepItems h
  obtain rfl : n = c.step := hn
  refine List.mem_flatMap.2 ⟨_, hp, List.mem_map.2 ⟨(a, c.item), ?_, rfl⟩⟩
  exact List.mem_zipIdx_iff_getElem?.2 hi

/-- A fact that holds of every item in the list of an operation holds of the item at the cursor. -/
theorem of_script {Q : Cursor → Action → Prop} {op : Op} (hQ : ∀ p ∈ op.script, Q p.1 p.2) {c : Cursor} {a : Action}
    (hc : c.op = op) (h : actionAt c = some a) : Q c a := by
  subst hc
  exact hQ _ (mem_script h)

/-- A fact of every item of the four operations that have items. -/
theorem of_scripts {Q : Cursor → Action → Prop} {c : Cursor} {a : Action}
    (hQ : ∀ op ∈ [Op.powerOn, .sendImage, .powerOff, .cleanup], ∀ p ∈ op.script, Q p.1 p.2)
    (h : actionAt c = some a) : Q c a := by
  have hm := mem_script h
  cases hop : c.op <;> rw [hop] at hm
  case none => cases hm
  case encode => cases hm
  case powerOn => exact hQ .powerOn (by decide) _ hm
  case sendImage => exact hQ .sendImage (by decide) _ hm
  case powerOff => exact hQ .powerOff (by decide) _ hm
  case cleanup => exact hQ .cleanup (by decide) _ hm

theorem op_ne_of_action {c : Cursor} {a : Action} (h : actionAt c = some a) : c.op ≠ .none ∧ c.op ≠ .encode :=
  of_scripts (Q := fun c _ => c.op ≠ .none ∧ c.op ≠ .encode) (by decide) h

/-! ### The parts of an item -/

/-- A precondition holds (R95, R97, R98, R101). -/
def State.passes (c : Check) (s : State) : Bool :=
  match c with
  | .sessionIdle => !s.session
  | .sessionActive => s.session
  | .panelGeometry => geometryValid s.panelWidth.toNat s.panelHeight.toNat
  | .frameHeld => s.frameValid
  | .frameMatches => decide (s.frameWidth = s.panelWidth) && decide (s.frameHeight = s.panelHeight)
  | .refreshAllowed => s.refreshAllowed

/-- The error of a precondition that does not hold. -/
def Check.error : Check → ErrorCode
  | .sessionIdle => .invalidState
  | .sessionActive => .invalidState
  | .panelGeometry => .geometryInvalid
  | .frameHeld => .noFrame
  | .frameMatches => .dimensionMismatch
  | .refreshAllowed => .refreshTooSoon

theorem runCheck_eq (c : Check) (s : State) : s.runCheck c = s.require (s.passes c) c.error := by cases c <;> rfl

/-- The event an item is about to issue; a test issues none, and a busy wait polls or sleeps (R94). -/
def State.itemEvent (a : Action) (s : State) : Option Event :=
  match a with
  | .test _ => none
  | .exportLine l => some (.exportLine (s.lineNumber l))
  | .setDir l d => some (.setDir (s.lineNumber l) d)
  | .set l v => some (.set (s.lineNumber l) v)
  | .setBestEffort l v => some (.set (s.lineNumber l) v)
  | .unexportLine l => some (.unexportLine (s.lineNumber l))
  | .busOpen => some (.busOpen s.params.busDevicePath)
  | .busConfig => some (.busConfig s.params.busMode s.params.busWordBits s.params.busClockHz)
  | .busClose => some .busClose
  | .delay ms => some (.delay ms)
  | .wire w => some (.busWrite (s.wireBytes w))
  | .waitBusy _ =>
    match s.wait with
    | .idle => some (.get (s.lineNumber .busy))
    | .poll _ => some (.get (s.lineNumber .busy))
    | .sleep _ => some (.delay Config.busyPollMs)

/-- What an item's event does to the handles when it succeeds (R56, R57). -/
def Action.effect : Action → State → State
  | .exportLine l => State.markExported l true
  | .unexportLine l => State.markExported l false
  | .busOpen => State.markBusOpen true
  | .busClose => State.markBusOpen false
  | .test _ => id
  | .setDir _ _ => id
  | .set _ _ => id
  | .setBestEffort _ _ => id
  | .busConfig => id
  | .delay _ => id
  | .wire _ => id
  | .waitBusy _ => id

/-- An item issues its event; REFRESH records its time first (R97 step 5 item 0). -/
def State.issue (a : Action) (e : Event) (s : State) : State :=
  if a = .wire .refresh then s.stampRefresh.emit e else s.emit e

/-- The item does not look at the outcome of its event: a Delay cannot fail, and a best-effort Set may (R12, R102). -/
def Action.unchecked : Action → Bool
  | .setBestEffort _ _ => true
  | .delay _ => true
  | .test _ => false
  | .exportLine _ => false
  | .setDir _ _ => false
  | .set _ _ => false
  | .unexportLine _ => false
  | .busOpen => false
  | .busConfig => false
  | .busClose => false
  | .wire _ => false
  | .waitBusy _ => false

/-- The item is a busy wait. -/
def Action.waits : Action → Bool
  | .waitBusy _ => true
  | .setBestEffort _ _ => false
  | .delay _ => false
  | .test _ => false
  | .exportLine _ => false
  | .setDir _ _ => false
  | .set _ _ => false
  | .unexportLine _ => false
  | .busOpen => false
  | .busConfig => false
  | .busClose => false
  | .wire _ => false

/-- t0 of a busy wait: Now() before the first poll (R94). -/
def State.waitStart (s : State) : Nat :=
  match s.wait with
  | .idle => s.now
  | .poll t0 => t0
  | .sleep t0 => t0

/-- What a move at item `a` leads to. -/
inductive ItemMove (s : State) : Action → State → Prop where
  /-- a test that holds -/
  | passed (c : Check) (h : s.passes c = true) : ItemMove s (.test c) s.advance
  /-- a test that does not hold -/
  | rejected (c : Check) (h : s.passes c = false) : ItemMove s (.test c) (s.raiseHere c.error)
  /-- the event succeeded -/
  | done (a : Action) (e : Event) (he : s.itemEvent a = some e) (hw : a.waits = false)
      (hok : s.outcomeOf e s.answer ≠ .fail) :
      ItemMove s a (a.effect (s.issue a e)).advance
  /-- the event failed and the item does not look at it -/
  | ignored (l : Line) (v : Bool) (hfail : s.outcomeOf (.set (s.lineNumber l) v) s.answer = .fail) :
      ItemMove s (.setBestEffort l v) (s.emit (.set (s.lineNumber l) v)).advance
  /-- the event failed -/
  | failed (a : Action) (e : Event) (he : s.itemEvent a = some e) (hu : a.unchecked = false)
      (hfail : s.outcomeOf e s.answer = .fail) : ItemMove s a ((s.issue a e).failItem .hardwareIo)
  /-- a poll read the level the wait waits for -/
  | matched (b : Bool) (hw : ∀ t, s.wait ≠ .sleep t)
      (hlevel : s.outcomeOf (.get (s.lineNumber .busy)) s.answer = .okLevel (s.targetLevel b)) :
      ItemMove s (.waitBusy b) (s.emit (.get (s.lineNumber .busy))).advance
  /-- a poll read the other level, past the bound -/
  | timedOut (b : Bool) (hw : ∀ t, s.wait ≠ .sleep t)
      (hlevel : s.outcomeOf (.get (s.lineNumber .busy)) s.answer = .okLevel (!s.targetLevel b))
      (hlate : s.busyTimeout.toNat ≤ s.now + s.answer.ms - s.waitStart) :
      ItemMove s (.waitBusy b) ((s.emit (.get (s.lineNumber .busy))).failItem .hardwareTimeout)
  /-- a poll read the other level, before the bound -/
  | polled (b : Bool) (hw : ∀ t, s.wait ≠ .sleep t)
      (hlevel : s.outcomeOf (.get (s.lineNumber .busy)) s.answer = .okLevel (!s.targetLevel b))
      (hearly : s.now + s.answer.ms - s.waitStart < s.busyTimeout.toNat) :
      ItemMove s (.waitBusy b) { s.emit (.get (s.lineNumber .busy)) with wait := .sleep s.waitStart }
  /-- the delay between two polls -/
  | slept (b : Bool) (t0 : Nat) (hw : s.wait = .sleep t0) :
      ItemMove s (.waitBusy b) { s.emit (.delay Config.busyPollMs) with wait := .poll t0 }

/-! ### A move at an item -/

/-- Exactly the events other than Delay can fail (R12, R54). -/
theorem outcomeOf_eq_fail_iff (s : State) (e : Event) (a : Answer) :
    s.outcomeOf e a = .fail ↔ (∀ ms, e ≠ .delay ms) ∧ a.ok = false := by
  unfold State.outcomeOf
  split
  · simp
  all_goals cases a.ok <;> simp_all

@[simp] theorem outcomeOf_delay (s : State) (ms : Nat) (a : Answer) : s.outcomeOf (.delay ms) a = .ok := rfl

@[simp] theorem outcomeOf_get (s : State) (n : Nat) (a : Answer) :
    s.outcomeOf (.get n) a = if a.ok then .okLevel a.level else .fail := rfl

/-- A checked item is done or has failed. -/
theorem itemMove_checked {s : State} {a : Action} {e : Event} (he : s.itemEvent a = some e) (hw : a.waits = false)
    (hu : a.unchecked = false) (hd : ∀ ms, e ≠ .delay ms) :
    ItemMove s a ((s.issue a e).settle s.answer.ok a.effect) := by
  unfold State.settle
  cases hok : s.answer.ok
  · exact .failed a e he hu ((outcomeOf_eq_fail_iff ..).2 ⟨hd, hok⟩)
  · exact .done a e he hw (by simp [outcomeOf_eq_fail_iff, hok])

theorem itemMove_poll {s : State} (b : Bool) (hw : ∀ t, s.wait ≠ .sleep t) :
    ItemMove s (.waitBusy b) (s.pollBusy b s.waitStart) := by
  have he : s.itemEvent (.waitBusy b) = some (.get (s.lineNumber .busy)) := by
    unfold State.itemEvent
    cases h : s.wait with
    | sleep t => exact absurd h (hw t)
    | idle | poll => rfl
  unfold State.pollBusy
  cases hok : s.answer.ok
  · exact .failed (.waitBusy b) _ he rfl (by simp [hok])
  · simp only [if_true]
    unfold State.afterPoll
    have htarget : (s.emit (.get (s.lineNumber .busy))).targetLevel b = s.targetLevel b := by simp [State.targetLevel]
    rw [htarget]
    split
    · rename_i hl; exact .matched b hw (by simp [hok, hl])
    · rename_i hl
      have hl' : s.outcomeOf (.get (s.lineNumber .busy)) s.answer = .okLevel (!s.targetLevel b) := by
        simp [hok, Bool.eq_not_of_ne hl]
      split
      · rename_i hlate; exact .timedOut b hw hl' (by simpa [Event.minMs] using hlate)
      · rename_i hearly; exact .polled b hw hl' (by simpa [Event.minMs] using hearly)

/-- A move that runs item `a` is one of the cases of `ItemMove`. -/
theorem runAction_itemMove (a : Action) (s : State) : ItemMove s a (s.runAction a) := by
  cases a with
  | test c =>
    show ItemMove s _ (s.runCheck c)
    rw [runCheck_eq, State.require]
    cases h : s.passes c
    · exact .rejected c h
    · exact .passed c h
  | setBestEffort l v =>
    by_cases h : s.outcomeOf (.set (s.lineNumber l) v) s.answer = .fail
    · exact .ignored l v h
    · exact .done (.setBestEffort l v) _ rfl rfl h
  | delay ms => exact .done (.delay ms) (.delay ms) rfl rfl (by simp)
  | wire w =>
    have h := itemMove_checked (s := s) (a := .wire w) rfl rfl rfl (fun _ => by simp)
    show ItemMove s _ (s.wireWrite w (s.wireBytes w))
    unfold State.wireWrite
    unfold State.issue at h
    split <;> simp_all [State.checkedEvent] <;> exact h
  | waitBusy b =>
    cases hw : s.wait with
    | idle => 
      have h := itemMove_poll (s := s) b (by simp [hw])
      simpa [State.runAction, State.waitMove, hw, State.waitStart] using h
    | poll t0 => 
      have h := itemMove_poll (s := s) b (by simp [hw])
      simpa [State.runAction, State.waitMove, hw, State.waitStart] using h
    | sleep t0 =>
      have h := ItemMove.slept b t0 hw
      simpa [State.runAction, State.waitMove, hw] using h
  | exportLine l => exact itemMove_checked rfl rfl rfl (fun _ => by simp)
  | setDir l d => exact itemMove_checked rfl rfl rfl (fun _ => by simp)
  | set l v => exact itemMove_checked rfl rfl rfl (fun _ => by simp)
  | unexportLine l => exact itemMove_checked rfl rfl rfl (fun _ => by simp)
  | busOpen => exact itemMove_checked rfl rfl rfl (fun _ => by simp)
  | busConfig => exact itemMove_checked rfl rfl rfl (fun _ => by simp)
  | busClose => exact itemMove_checked rfl rfl rfl (fun _ => by simp)

/-- A move of a running operation: of ENCODE, past an item that is skipped, at an item, or the end of what has no item. -/
inductive Moved (s : State) : State → Prop where
  | packed (h : s.seq.op = .encode) : Moved s s.encodeMove
  | skipped (a : Action) (ha : actionAt s.seq = some a) (hc : s.seq.op = .cleanup) (hn : s.holdsFor a = false) :
      Moved s s.advance
  | ran (a : Action) (t : State) (ha : actionAt s.seq = some a) (hh : s.seq.op = .cleanup → s.holdsFor a = true)
      (h : ItemMove s a t) : Moved s t
  | ended (ho : s.seq.op ≠ .encode) (h : actionAt s.seq = none) : Moved s s.endOperation

theorem move_moved (s : State) : Moved s s.move := by
  cases ha : actionAt s.seq with
  | some a =>
    rw [move_of_action ha, State.controllerMove, ha]
    dsimp only
    split
    · rename_i hs
      obtain ⟨hc, hn⟩ : s.seq.op = .cleanup ∧ s.holdsFor a = false := by simpa [State.skips] using hs
      exact .skipped a ha hc hn
    · rename_i hs
      refine .ran a _ ha (fun hc => ?_) (runAction_itemMove a s)
      simpa [State.skips, hc] using hs
  | none =>
    by_cases ho : s.seq.op = .encode
    · have : s.move = s.encodeMove := by unfold State.move; rw [ho]
      rw [this]
      exact .packed ho
    · have : s.move = s.endOperation := by
        unfold State.move State.controllerMove
        rw [ha]
        cases h : s.seq.op <;> simp_all
      rw [this]
      exact .ended ho ha

end Sys2Proof.Machine
end

section
/-! PROOFS. The rule for what every step keeps (`KeptByStep`): a property that acceptances, inputs and moves keep. Then the
parameters, the time, the host's side of the state and the canonical layers. Settles O6, O47, O48, O51 and O53. -/

namespace Sys2Proof.Machine

/-! ### The rule -/

/-- The four operations a host command starts (R66). -/
abbrev Op.isHost (op : Op) : Prop := op = .encode ∨ op = .powerOn ∨ op = .sendImage ∨ op = .powerOff

/-- A property that each part of a step keeps; a move is taken only while BUSY = 1, a command is accepted only while BUSY = 0. -/
structure KeptByStep (P : State → Prop) : Prop where
  /-- what no operation reads: the queue, the replies, HAZARD, the source's size, and time that passes -/
  outside : ∀ (s : State) (q : List Pending) (r : List Reply) (hz : Bool) (w h d : Nat), P s →
    P { s with inputs := q, replies := r, hazard := hz, srcWidth := w, srcHeight := h, now := s.now + d }
  /-- a store of an RW register whose write condition holds -/
  stored : ∀ (s : State) (a : Nat) (v : Word), ¬ s.writeDropped a → P s → P (s.storeRegister a v)
  reset : ∀ s : State, s.quiescent = true → P s → P s.unitReset
  accepted : ∀ (s : State) (op : Op), op.isHost → s.busy = false → P s → P (s.acceptCommand op op.firstStep)
  /-- a command that is accepted and ends at once -/
  ended : ∀ (s : State) (e : ErrorReg), s.busy = false → P s → P { s.completed with error := e }
  moved : ∀ s : State, paramsOk s.params = true → s.busy = true → P s → P s.move

namespace KeptByStep

variable {P : State → Prop}

theorem setInputs (k : KeptByStep P) (q : List Pending) {s : State} (h : P s) : P (s.setInputs q) :=
  k.outside s q s.replies s.hazard s.srcWidth s.srcHeight 0 h

theorem dropWrite (k : KeptByStep P) {s : State} (h : P s) : P s.dropWrite :=
  k.outside s s.inputs s.replies true s.srcWidth s.srcHeight 0 h

theorem tick (k : KeptByStep P) {s : State} (h : P s) : P s.tick := by
  unfold State.tick
  split
  · exact h
  · exact k.setInputs _ h

theorem run (k : KeptByStep P) (n : Nat) {s : State} (hp : paramsOk s.params = true) (h : P s) : P (State.run n s) := by
  refine (run_induction (P := fun u => paramsOk u.params = true ∧ P u) ?_ ?_ n ⟨hp, h⟩).2
  · rintro u ⟨hu, h⟩
    have : u.tick.params = u.params := congrArg HostSide.params (tick_hostSide u)
    exact ⟨this ▸ hu, k.tick h⟩
  · rintro u hb ⟨hu, h⟩
    have : u.move.params = u.params := congrArg HostSide.params (move_hostSide u)
    exact ⟨this ▸ hu, k.moved u hu hb h⟩

theorem hostCommand (k : KeptByStep P) {op : Op} (ho : op.isHost) {s : State} (hp : paramsOk s.params = true) (h : P s) :
    P (s.hostCommand op) := by
  unfold State.hostCommand
  split
  · exact k.dropWrite h
  · rename_i hb
    exact k.run _ hp (k.accepted s op ho (Bool.eq_false_iff.2 hb) h)

theorem illegalCommand (k : KeptByStep P) {s : State} (h : P s) : P s.illegalCommand := by
  unfold State.illegalCommand
  split
  · exact k.dropWrite h
  · rename_i hb
    exact k.ended s _ (Bool.eq_false_iff.2 hb) h

theorem hostWrite (k : KeptByStep P) (a : Nat) (v : Word) {s : State} (h : P s) : P (s.hostWrite a v) := by
  by_cases hd : s.writeDropped a
  · rw [hostWrite_of_dropped hd]; exact k.dropWrite h
  · rw [hostWrite_of_not_dropped hd]; exact k.stored s a v hd h

theorem takeInput (k : KeptByStep P) {i : Input} {s t : State} (ht : s.takeInput i = .next t) (h : P s) : P t := by
  cases i with
  | read a n =>
    simp only [State.takeInput] at ht
    split at ht <;> cases ht
    exact k.outside s s.inputs _ s.hazard s.srcWidth s.srcHeight 0 h
  | write a n v =>
    simp only [State.takeInput] at ht
    split at ht <;> cases ht
    exact k.hostWrite a v h
  | unitReset =>
    simp only [State.takeInput] at ht
    split at ht <;> cases ht
    exact k.reset s ‹_› h
  | source w h' =>
    cases ht
    exact k.outside s s.inputs s.replies s.hazard w h' 0 h
  | elapse ms =>
    cases ht
    exact k.outside s s.inputs s.replies s.hazard s.srcWidth s.srcHeight ms h

end KeptByStep

/-- Running a host command is the acceptance and the moves of its operation (R66). -/
theorem exec_host {i : Instr} (h : i.channel = .hostCommand) :
    ∃ op : Op, op.isHost ∧ ∀ s, exec i s = .next (s.hostCommand op) := by
  cases i with
  | encode => exact ⟨.encode, by decide, fun _ => rfl⟩
  | powerOn => exact ⟨.powerOn, by decide, fun _ => rfl⟩
  | sendImage => exact ⟨.sendImage, by decide, fun _ => rfl⟩
  | powerOff => exact ⟨.powerOff, by decide, fun _ => rfl⟩
  | _ => cases h

/-- What each part of a step keeps, the step keeps. -/
theorem KeptByStep.step {P : State → Prop} (k : KeptByStep P) {s t : State} (h : P s) (hs : step s = .next t) : P t := by
  obtain ⟨hp, ⟨p, rest, v, i, -, -, -, hd, he⟩ | ⟨p, rest, -, -, rfl⟩ | ⟨p, rest, -, -, ht⟩ | ⟨-, hb, rfl⟩ | ⟨-, -, rfl⟩⟩ :=
    step_cases hs
  · obtain ⟨op, ho, hx⟩ := exec_host (decodedBytesAreTheEncoding _ _ _ hd).2.1
    rw [hx] at he
    cases he
    exact k.hostCommand ho (s := s.setInputs rest) hp (k.setInputs rest h)
  · exact k.illegalCommand (k.setInputs rest h)
  · exact k.takeInput ht (k.setInputs rest h)
  · have : s.tick.params = s.params := congrArg HostSide.params (tick_hostSide s)
    exact k.moved s.tick (this ▸ hp) (by simpa using hb) (k.tick h)
  · exact h

/-! ### Stores -/

/-- A store changes the host's registers alone. -/
theorem storeRegister_cases (a : Nat) (v : Word) (s : State) :
    ∃ (w h pw ph bt : Word) (c : Bool) (tc : Byte), s.storeRegister a v = { s with
      encWidth := w, encHeight := h, encColor := c, panelWidth := pw, panelHeight := ph, tempCode := tc
      busyTimeout := bt } := by
  unfold State.storeRegister
  split <;> exact ⟨_, _, _, _, _, _, _, rfl⟩

/-! ### The parameters and the time -/

/-- Settles O6: no part of a step writes the parameters. -/
theorem stepKeepsParameters : Obligations.StepKeepsParameters := by
  intro s t hs
  refine KeptByStep.step (P := fun u => u.params = s.params) ?_ rfl hs
  refine ⟨fun _ _ _ _ _ _ _ h => h, fun u a v _ h => ?_, fun _ _ h => h, fun _ _ _ _ h => h, fun _ _ _ h => h,
    fun u _ _ h => ?_⟩
  · obtain ⟨_, _, _, _, _, _, _, hu⟩ := storeRegister_cases a v u
    rw [hu]; exact h
  · exact (congrArg HostSide.params (move_hostSide u)).trans h

@[simp] theorem markExported_now (l : Line) (v : Bool) (s : State) : (s.markExported l v).now = s.now := rfl

theorem effect_now (a : Action) (s : State) : (a.effect s).now = s.now := by cases a <;> rfl

theorem issue_now (a : Action) (e : Event) (s : State) : (s.issue a e).now = s.now + e.minMs + s.answer.ms := by
  unfold State.issue
  split
  · exact State.emit_now ..
  · exact State.emit_now ..

theorem itemMove_now_le {s t : State} {a : Action} (h : ItemMove s a t) : s.now ≤ t.now := by
  cases h <;> simp [effect_now, issue_now] <;> omega

theorem encodeMove_now_le (s : State) : s.now ≤ s.encodeMove.now := by
  unfold State.encodeMove
  split
  · unfold State.encodeGeometry; split <;> simp
  · unfold State.encodeDimensions; split <;> simp
  · unfold State.encodePixel
    split
    · have hkeep : ∀ b u, (State.pixelOk b u).now = u.now := by
        intro b u
        unfold State.pixelOk State.storeGroup
        split_ifs <;> rfl
      rw [hkeep]; simp; omega
    · simp [State.pixelFail]; omega
  · exact Nat.le_refl _
  · exact Nat.le_refl _
  · exact Nat.le_refl _

/-- No move takes time back (R128). -/
theorem move_now_le (s : State) : s.now ≤ s.move.now := by
  have h := move_moved s
  generalize s.move = t at h
  cases h with
  | packed => exact encodeMove_now_le s
  | skipped => simp
  | ran _ _ _ _ h => exact itemMove_now_le h
  | ended => simp

/-- Settles O51: an event lasts at least its minimum, an elapse at least 0, and the unit reset leaves the time base. -/
theorem timeNeverDecreases : Obligations.TimeNeverDecreases := by
  intro s t hs
  refine KeptByStep.step (P := fun u => s.now ≤ u.now) ?_ (Nat.le_refl _) hs
  refine ⟨fun _ _ _ _ _ _ _ h => Nat.le_add_right_of_le h, fun u a v _ h => ?_, fun _ _ h => h, fun _ _ _ _ h => h,
    fun _ _ _ h => h, fun u _ _ h => h.trans (move_now_le u)⟩
  obtain ⟨_, _, _, _, _, _, _, hu⟩ := storeRegister_cases a v u
  rw [hu]; exact h

/-! ### The layers -/

theorem storeGroup_canonical (acc : Byte) {s : State} (h : memoriesCanonical s) : memoriesCanonical (s.storeGroup acc) := by
  have hset := memorySet_wf s.groupIndex acc h.1
  unfold State.storeGroup
  split_ifs <;> exact ⟨hset, h.2⟩

theorem encodeMove_canonical {s : State} (h : memoriesCanonical s) : memoriesCanonical s.encodeMove := by
  unfold State.encodeMove
  split
  · unfold State.encodeGeometry; split <;> simpa [memoriesCanonical] using h
  · unfold State.encodeDimensions; split <;> simpa [memoriesCanonical] using h
  · have hemit : memoriesCanonical (s.emit (.pixRead s.pixel.x s.pixel.y)) := by simpa [memoriesCanonical] using h
    unfold State.encodePixel
    split
    · unfold State.pixelOk
      split
      · exact hemit
      · exact storeGroup_canonical _ hemit
    · simpa [memoriesCanonical, State.pixelFail] using ⟨memoryForget_wf _ h.1, memoryForget_wf _ h.2⟩
  · exact ⟨h.1, memoryZero_wf _ h.2⟩
  · exact h
  · exact h

theorem move_canonical {s : State} (h : memoriesCanonical s) : memoriesCanonical s.move := by
  by_cases ho : s.seq.op = .encode
  · have : s.move = s.encodeMove := by unfold State.move; rw [ho]
    exact this ▸ encodeMove_canonical h
  · have hf := move_frameSide ho
    have h1 : s.move.primary = s.primary := congrArg FrameSide.primary hf
    have h2 : s.move.secondary = s.secondary := congrArg FrameSide.secondary hf
    exact ⟨h1 ▸ h.1, h2 ▸ h.2⟩

/-- Settles O53: the moves of ENCODE write the layers by operations that keep the form; the unit reset empties the lists. -/
theorem stepKeepsLayersCanonical : Obligations.StepKeepsLayersCanonical := by
  intro s t h hs
  refine KeptByStep.step ?_ h hs
  refine ⟨fun _ _ _ _ _ _ _ h => h, fun u a v _ h => ?_, fun _ _ _ => ⟨.nil, .nil⟩, fun _ _ _ _ h => h, fun _ _ _ h => h,
    fun u _ _ h => move_canonical h⟩
  obtain ⟨_, _, _, _, _, _, _, hu⟩ := storeRegister_cases a v u
  rw [hu]; exact h

/-! ### What an instruction can do -/

/-- An instruction is a host command, or a wire command that is written by its item. -/
theorem exec_cases {i : Instr} {s t : State} (h : exec i s = .next t) :
    (∃ op : Op, op.isHost ∧ (op = .encode ↔ i = .encode) ∧ (op = .sendImage ↔ i = .sendImage) ∧ t = s.hostCommand op) ∨
      (i.channel ≠ .hostCommand ∧
        ∃ w bytes, (w = .refresh ↔ i = .refresh) ∧ s.atWireItem w = true ∧ t = s.wireWrite w bytes) := by
  have wire {w : WireItem} {bytes : List Byte} (hw : s.writeAt w bytes = .next t) :
      s.atWireItem w = true ∧ t = s.wireWrite w bytes := by
    unfold State.writeAt at hw
    split at hw <;> cases hw
    exact ⟨‹_›, rfl⟩
  cases i with
  | encode => cases h; exact .inl ⟨.encode, by decide, by simp, by simp, rfl⟩
  | powerOn => cases h; exact .inl ⟨.powerOn, by decide, by simp, by simp, rfl⟩
  | sendImage => cases h; exact .inl ⟨.sendImage, by decide, by simp, by simp, rfl⟩
  | powerOff => cases h; exact .inl ⟨.powerOff, by decide, by simp, by simp, rfl⟩
  | layerData data =>
    have h : execLayerData data s = .next t := h
    unfold execLayerData at h
    split at h
    · exact .inr ⟨by simp [Instr.channel], _, _, by simp, wire h⟩
    · exact .inr ⟨by simp [Instr.channel], _, _, by simp, wire h⟩
  | softReset | tempComp | activateA | activateB | panelSettings | deepSleep | layerSelPrimary | layerSelSecondary
  | powerOnDisplay | refresh =>
    exact .inr ⟨by simp [Instr.channel], _, _, by simp, wire h⟩

theorem wireWrite_hostSide (w : WireItem) (bytes : List Byte) (s : State) :
    (s.wireWrite w bytes).hostSide = s.hostSide := by
  unfold State.wireWrite
  split
  · exact checkedEvent_hostSide _ _ (fun _ => rfl) s.stampRefresh
  · exact checkedEvent_hostSide _ _ (fun _ => rfl) s

theorem wireWrite_frameSide (w : WireItem) (bytes : List Byte) (s : State) :
    (s.wireWrite w bytes).frameSide = s.frameSide := by
  unfold State.wireWrite
  split
  · exact checkedEvent_frameSide _ _ (fun _ => rfl) s.stampRefresh
  · exact checkedEvent_frameSide _ _ (fun _ => rfl) s

theorem hostCommand_frameSide {op : Op} (h : op ≠ .encode) (s : State) : (s.hostCommand op).frameSide = s.frameSide := by
  unfold State.hostCommand
  split
  · rfl
  · exact run_frameSide _ (s := s.acceptCommand op op.firstStep) h

/-- Settles O48: the moves of every operation leave the host's side, those of the controller the frame's side too. -/
theorem onlyEncodeWritesTheFrame : Obligations.OnlyEncodeWritesTheFrame := by
  intro i s t h
  obtain ⟨op, -, he, -, rfl⟩ | ⟨-, w, bytes, -, -, rfl⟩ := exec_cases h
  · exact ⟨hostCommand_hostSide op s, fun hi => hostCommand_frameSide (mt he.1 hi) s⟩
  · exact ⟨wireWrite_hostSide w bytes s, fun _ => wireWrite_frameSide w bytes s⟩

/-! ### No step faults -/

/-- An input is taken or refused. -/
theorem takeInput_ne_fault (i : Input) (s : State) (r : Fault) : s.takeInput i ≠ .fault r := by
  cases i with
  | read a n => simp only [State.takeInput]; split <;> simp
  | write a n v => simp only [State.takeInput]; split <;> simp
  | unitReset => simp only [State.takeInput]; split <;> simp
  | source w h => simp [State.takeInput]
  | elapse ms => simp [State.takeInput]

/-- Settles O47: a step decodes a host command, which answers a next state, or the bytes of the item at the cursor, whose wire
command is the item's move. -/
theorem noStepFaults : Obligations.NoStepFaults := by
  intro s r
  unfold step
  split
  swap
  · simp
  cases hf : s.fetch with
  | wait => simp
  | item => simp
  | input i => exact takeInput_ne_fault i s.fetched r
  | bytes c data =>
    dsimp only
    cases hd : decode c data with
    | error e => simp
    | ok i =>
      dsimp only
      unfold State.fetch at hf
      split at hf
      · split at hf
        · rename_i p _ hq
          rcases fetchInput_cases p.input with ⟨v, -, hv⟩ | hv <;> rw [hv] at hf <;> cases hf
          obtain ⟨op, -, hx⟩ := exec_host (decodedBytesAreTheEncoding _ _ _ hd).2.1
          simp [hx]
        · cases hf
      · rename_i hdue
        split at hf
        · split at hf
          · rename_i w hw
            cases hf
            have hx : exec i s.tick = .next s.tick.move := exec_wire_eq_move (by simpa using hw) (by simpa using hd)
            simp [State.fetched, hdue, hx]
          · cases hf
        · cases hf

end Sys2Proof.Machine
end

section
/-! PROOFS. Where a move of the controller leaves the cursor, BUSY and SESSION, said once (`Landing`), and what it adds to the trace
and the handles. Then the invariant of the cursor (10_state.md R18). Settles O54. -/

namespace Sys2Proof.Machine

/-! ### Where a move lands -/

/-- The item's test holds, and in POWER_ON and SEND_IMAGE its event has not failed, or the item does not look at it. -/
def State.wentWell (a : Action) (s : State) : Prop :=
  (∀ k, a = .test k → s.passes k = true) ∧
    (s.seq.op = .powerOn ∨ s.seq.op = .sendImage → ∀ e, s.itemEvent a = some e → s.outcomeOf e s.answer = .fail →
      a.unchecked = true)

/-- The cursor, BUSY and SESSION after a move at item `a`. -/
inductive Landing (s : State) (a : Action) (t : State) : Prop where
  /-- a busy wait goes on -/
  | stays (hw : a.waits = true) (hseq : t.seq = s.seq) (hb : t.busy = s.busy) (hs : t.session = s.session)
      (hwait : t.wait ≠ .idle)
  /-- the next item -/
  | next (c : Cursor) (hn : nextItem s.seq = some c) (hgood : s.wentWell a) (hseq : t.seq = c) (hb : t.busy = s.busy)
      (hs : t.session = s.session)
  /-- the end of the operation, after its last item -/
  | closes (hn : nextItem s.seq = none) (hgood : s.wentWell a) (hseq : t.seq = noOperation) (hb : t.busy = false)
      (hs : t.session = s.closing.session)
  /-- the end of the operation, by a test that does not hold -/
  | stops (k : Check) (ha : a = .test k) (hfails : s.passes k = false) (hseq : t.seq = noOperation) (hb : t.busy = false)
      (hs : t.session = s.session)
  /-- an error of POWER_ON or SEND_IMAGE starts CLEANUP (R122) -/
  | cleansUp (ho : s.seq.op = .powerOn ∨ s.seq.op = .sendImage) (hseq : t.seq = { op := .cleanup, step := 1, item := 0 })
      (hb : t.busy = s.busy) (hs : t.session = s.session)
  /-- a failure in step 1 of a shutdown goes to step 2 (R101, R104) -/
  | skipsWait (ho : s.seq.op = .powerOff ∨ s.seq.op = .cleanup) (h1 : s.seq.step = 1)
      (hseq : t.seq = { op := s.seq.op, step := 2, item := 0 }) (hb : t.busy = s.busy) (hs : t.session = s.session)

theorem closing_session_congr {s u : State} (hq : u.seq = s.seq) (hs : u.session = s.session) :
    u.closing.session = s.closing.session := by
  unfold State.closing
  rw [hq]
  cases s.seq.op <;> simp [hs]

/-- A state that stands where `s` does, about to advance. -/
theorem landing_of_advance {s u : State} {a : Action} (hgood : s.wentWell a) (hq : u.seq = s.seq) (hb : u.busy = s.busy)
    (hs : u.session = s.session) : Landing s a u.advance := by
  rcases advance_cases u with ⟨c, hc, h⟩ | ⟨hn, h⟩
  · rw [h]; exact .next c (hq ▸ hc) hgood rfl hb hs
  · rw [h]; exact .closes (hq ▸ hn) hgood rfl rfl (closing_session_congr hq hs)

/-- An error of an item: POWER_ON and SEND_IMAGE start CLEANUP, a shutdown goes on. -/
theorem landing_of_failItem {s u : State} {a : Action} {e : ErrorCode} (he : e.isHardware = true)
    (ha : actionAt s.seq = some a) (ht : ∀ k, a ≠ .test k) (hq : u.seq = s.seq) (hb : u.busy = s.busy)
    (hs : u.session = s.session) : Landing s a (u.failItem e) := by
  have shutdown (ho : s.seq.op = .powerOff ∨ s.seq.op = .cleanup) (v : State) (hvq : v.seq = s.seq)
      (hvb : v.busy = s.busy) (hvs : v.session = s.session) : Landing s a v.advanceAfterFail := by
    unfold State.advanceAfterFail
    split
    · rename_i h1
      exact .skipsWait ho (hvq ▸ h1) (by simp [hvq]) hvb hvs
    · refine landing_of_advance ⟨fun k hk => absurd hk (ht k), fun h => ?_⟩ hvq hvb hvs
      rcases ho with ho | ho <;> simp [ho] at h
  have hardware (ho : s.seq.op = .powerOn ∨ s.seq.op = .sendImage) : Landing s a (u.raiseHere e) := by
    have : u.raiseHere e = (u.setError e u.seq.op.phase u.seq.step u.seq.item).startCleanup := by
      unfold State.raiseHere State.raise
      rw [hq]
      rcases ho with ho | ho <;> simp [ho, he, Op.phase]
    rw [this]
    exact .cleansUp ho rfl hb hs
  obtain ⟨hnone, henc⟩ := op_ne_of_action ha
  unfold State.failItem
  rw [hq]
  cases ho : s.seq.op with
  | none => exact absurd ho hnone
  | encode => exact absurd ho henc
  | powerOn => exact hardware (.inl ho)
  | sendImage => exact hardware (.inr ho)
  | powerOff =>
    refine shutdown (.inl ho) (u.note e) ((note_seq e u).trans hq) ?_ ?_
    · rw [← hb]; unfold State.note; split <;> rfl
    · rw [← hs]; unfold State.note; split <;> rfl
  | cleanup => exact shutdown (.inr ho) u.cleanupFail hq hb hs

theorem check_error_not_hardware (k : Check) : k.error.isHardware = false := by cases k <;> rfl

@[simp] theorem issue_seq (a : Action) (e : Event) (s : State) : (s.issue a e).seq = s.seq := by
  unfold State.issue; split <;> simp
@[simp] theorem issue_busy (a : Action) (e : Event) (s : State) : (s.issue a e).busy = s.busy := by
  unfold State.issue; split <;> simp
@[simp] theorem issue_session (a : Action) (e : Event) (s : State) : (s.issue a e).session = s.session := by
  unfold State.issue; split <;> simp
@[simp] theorem effect_seq (a : Action) (s : State) : (a.effect s).seq = s.seq := by cases a <;> rfl
@[simp] theorem effect_busy (a : Action) (s : State) : (a.effect s).busy = s.busy := by cases a <;> rfl
@[simp] theorem effect_session (a : Action) (s : State) : (a.effect s).session = s.session := by cases a <;> rfl

/-- Every move at an item lands in one of these ways. -/
theorem itemMove_landing {s t : State} {a : Action} (h : ItemMove s a t) (ha : actionAt s.seq = some a) :
    Landing s a t := by
  have notTest {e : Event} (he : s.itemEvent a = some e) (k : Check) : a ≠ .test k := by rintro rfl; cases he
  cases h with
  | passed c hc =>
    refine landing_of_advance ⟨fun k hk => ?_, fun _ e he => ?_⟩ rfl rfl rfl
    · cases hk; exact hc
    · cases he
  | rejected c hc =>
    have hend : s.raiseHere c.error = (s.setError c.error s.seq.op.phase s.seq.step s.seq.item).endOperation := by
      unfold State.raiseHere State.raise
      simp [check_error_not_hardware]
    rw [hend]
    exact .stops c rfl hc rfl rfl rfl
  | done _ e he hw hok =>
    refine landing_of_advance ⟨fun k hk => absurd hk (notTest he k), fun _ e' he' hf => ?_⟩ (by simp) (by simp) (by simp)
    cases he.symm.trans he'
    exact absurd hf hok
  | ignored l v hf =>
    exact landing_of_advance ⟨fun k hk => (by cases hk), fun _ _ _ _ => rfl⟩ (by simp) (by simp) (by simp)
  | failed _ e he hu hf => exact landing_of_failItem rfl ha (notTest he) (by simp) (by simp) (by simp)
  | matched b hw hl =>
    refine landing_of_advance ⟨fun k hk => (by cases hk), fun _ e he hf => ?_⟩ (by simp) (by simp) (by simp)
    have : e = .get (s.lineNumber .busy) := by
      unfold State.itemEvent at he
      cases hs : s.wait with
      | sleep t => exact absurd hs (hw t)
      | idle | poll => rw [hs] at he; exact (Option.some.inj he).symm
    rw [this, hl] at hf
    cases hf
  | timedOut b hw hl hlate => exact landing_of_failItem rfl ha (fun k hk => by cases hk) (by simp) (by simp) (by simp)
  | polled b hw hl hearly => exact .stays rfl (by simp) (by simp) (by simp) (by simp)
  | slept b t0 hw => exact .stays rfl (by simp) (by simp) (by simp) (by simp)

/-- A skipped item of CLEANUP goes on to the next. -/
theorem skipped_landing {s : State} {a : Action} (ha : actionAt s.seq = some a) (hc : s.seq.op = .cleanup) :
    Landing s a s.advance := by
  refine landing_of_advance ⟨fun k hk => ?_, fun h => by simp [hc] at h⟩ rfl rfl rfl
  have : ∀ k, a ≠ .test k :=
    of_script (op := .cleanup) (Q := fun _ a => ∀ k, a ≠ .test k) (by simp [Op.script, Op.table, shutdownTable]) hc ha
  exact absurd hk (this k)

/-! ### What a move adds to the trace, and does to the handles -/

/-- The entry that an event of `s` makes in the trace (R54). -/
def State.entry (e : Event) (s : State) : Entry :=
  { event := e, outcome := s.outcomeOf e s.answer, time := s.now, pos := s.seq }

@[simp] theorem entry_event (e : Event) (s : State) : (s.entry e).event = e := rfl
@[simp] theorem entry_pos (e : Event) (s : State) : (s.entry e).pos = s.seq := rfl
@[simp] theorem entry_time (e : Event) (s : State) : (s.entry e).time = s.now := rfl
@[simp] theorem entry_outcome (e : Event) (s : State) : (s.entry e).outcome = s.outcomeOf e s.answer := rfl

theorem issue_trace (a : Action) (e : Event) (s : State) : (s.issue a e).trace = s.trace ++ [s.entry e] := by
  unfold State.issue
  split
  · exact State.emit_trace ..
  · exact State.emit_trace ..

@[simp] theorem effect_trace (a : Action) (s : State) : (a.effect s).trace = s.trace := by cases a <;> rfl

theorem itemEvent_of_poll {s : State} (b : Bool) (hw : ∀ t, s.wait ≠ .sleep t) :
    s.itemEvent (.waitBusy b) = some (.get (s.lineNumber .busy)) := by
  unfold State.itemEvent
  cases h : s.wait with
  | sleep t => exact absurd h (hw t)
  | idle | poll => rfl

/-- The event of a busy wait is a poll or the delay between two polls (R94). -/
theorem itemEvent_of_wait {s : State} {b : Bool} {e : Event} (h : s.itemEvent (.waitBusy b) = some e) :
    e = .get (s.lineNumber .busy) ∨ e = .delay Config.busyPollMs := by
  unfold State.itemEvent at h
  cases hw : s.wait with
  | idle => rw [hw] at h; exact .inl (Option.some.inj h).symm
  | poll t0 => rw [hw] at h; exact .inl (Option.some.inj h).symm
  | sleep t0 => rw [hw] at h; exact .inr (Option.some.inj h).symm

/-- A move at an item adds the entry of the item's event; a test adds none. -/
theorem itemMove_trace {s t : State} {a : Action} (h : ItemMove s a t) :
    ((∃ k, a = .test k) ∧ t.trace = s.trace) ∨ ∃ e, s.itemEvent a = some e ∧ t.trace = s.trace ++ [s.entry e] := by
  cases h with
  | passed c hc => exact .inl ⟨⟨c, rfl⟩, by simp⟩
  | rejected c hc => exact .inl ⟨⟨c, rfl⟩, by simp⟩
  | done _ e he hw hok => exact .inr ⟨e, he, by simp [issue_trace]⟩
  | ignored l v hf => exact .inr ⟨_, rfl, by simp [State.entry]⟩
  | failed _ e he hu hf => exact .inr ⟨e, he, by simp [issue_trace]⟩
  | matched b hw hl => exact .inr ⟨_, itemEvent_of_poll b hw, by simp [State.entry]⟩
  | timedOut b hw hl hlate => exact .inr ⟨_, itemEvent_of_poll b hw, by simp [State.entry]⟩
  | polled b hw hl hearly => exact .inr ⟨_, itemEvent_of_poll b hw, by simp [State.entry]⟩
  | slept b t0 hw => exact .inr ⟨.delay Config.busyPollMs, by simp [State.itemEvent, hw], by simp [State.entry]⟩

theorem issue_handles (a : Action) (e : Event) (s : State) :
    (s.issue a e).exported = s.exported ∧ (s.issue a e).busOpen = s.busOpen := by
  unfold State.issue
  split <;> simp

theorem effect_handles_congr (a : Action) {s u : State} (he : u.exported = s.exported) (ho : u.busOpen = s.busOpen) :
    (a.effect u).exported = (a.effect s).exported ∧ (a.effect u).busOpen = (a.effect s).busOpen := by
  cases a <;> simp [Action.effect, State.markExported, State.markBusOpen, he, ho]

/-- The handles after a move at an item: those of the event's effect where it succeeded, else as before (R56, R57). -/
theorem itemMove_handles {s t : State} {a : Action} (h : ItemMove s a t) :
    (t.exported = (a.effect s).exported ∧ t.busOpen = (a.effect s).busOpen ∧
        (∀ e, s.itemEvent a = some e → a.effect s = s ∨ s.outcomeOf e s.answer ≠ .fail)) ∨
      (t.exported = s.exported ∧ t.busOpen = s.busOpen ∧
        ∃ e, s.itemEvent a = some e ∧ s.outcomeOf e s.answer = .fail) := by
  cases h with
  | done _ e he hw hok =>
    obtain ⟨h1, h2⟩ := issue_handles a e s
    obtain ⟨h3, h4⟩ := effect_handles_congr a h1 h2
    refine .inl ⟨by simpa using h3, by simpa using h4, fun e' he' => .inr ?_⟩
    cases he.symm.trans he'
    exact hok
  | failed _ e he hu hf =>
    obtain ⟨h1, h2⟩ := issue_handles a e s
    exact .inr ⟨by simpa using h1, by simpa using h2, e, he, hf⟩
  | _ => exact .inl ⟨by simp [Action.effect], by simp [Action.effect], fun _ _ => .inl rfl⟩

/-! ### The cursor -/

/-- An operation of the controller runs, at one of its items. -/
abbrev State.onItem (s : State) : Prop := s.busy = true ∧ (actionAt s.seq).isSome = true

/-- No operation runs. -/
abbrev State.atRest (s : State) : Prop := s.busy = false ∧ s.seq = noOperation

theorem landing_rest {s t : State} {a : Action} (h : Landing s a t) (hb : s.busy = true) (ha : actionAt s.seq = some a) :
    t.onItem ∨ t.atRest := by
  cases h with
  | stays _ hseq hb' _ => exact .inl ⟨hb'.trans hb, by rw [hseq, ha]; rfl⟩
  | next c hn _ hseq hb' _ => exact .inl ⟨hb'.trans hb, by rw [hseq]; exact (nextItem_spec hn).1⟩
  | closes _ _ hseq hb' _ => exact .inr ⟨hb', hseq⟩
  | stops _ _ _ hseq hb' _ => exact .inr ⟨hb', hseq⟩
  | cleansUp _ hseq hb' _ => exact .inl ⟨hb'.trans hb, by rw [hseq]; rfl⟩
  | skipsWait ho _ hseq hb' _ =>
    refine .inl ⟨hb'.trans hb, ?_⟩
    rw [hseq]
    rcases ho with ho | ho <;> rw [ho] <;> rfl

/-- A move of the controller leaves the cursor at an item, or ends the operation. -/
theorem move_onItem {s : State} (h : s.onItem) : s.move.onItem ∨ s.move.atRest := by
  obtain ⟨hb, a, ha⟩ : s.busy = true ∧ ∃ a, actionAt s.seq = some a := ⟨h.1, Option.isSome_iff_exists.1 h.2⟩
  have hm := move_moved s
  generalize s.move = t at hm
  cases hm with
  | packed ho => exact absurd ho (op_ne_of_action ha).2
  | skipped a' ha' hc _ => exact landing_rest (skipped_landing ha' hc) hb ha'
  | ran a' _ ha' _ hi => exact landing_rest (itemMove_landing hi ha') hb ha'
  | ended _ hn => rw [hn] at ha; cases ha

/-- ENCODE runs, at one of its steps. -/
abbrev State.encoding (s : State) : Prop :=
  s.busy = true ∧ s.seq.op = .encode ∧ 1 ≤ s.seq.step ∧ s.seq.step ≤ 5 ∧ s.seq.item = 0

theorem raise_encode_atRest (e : ErrorCode) (j k : Nat) (s : State) : (s.raise e .encode j k).atRest := by
  rw [raise_encode]; exact ⟨rfl, rfl⟩

theorem encodeStep_encoding {s : State} (hb : s.busy = true) {j : Nat} (h1 : 1 ≤ j) (h5 : j ≤ 5) :
    (s.encodeStep j).encoding := ⟨hb, rfl, h1, h5, rfl⟩

/-- A move of ENCODE leaves the cursor at one of its steps, or ends it. -/
theorem encodeMove_encoding {s : State} (h : s.encoding) : s.encodeMove.encoding ∨ s.encodeMove.atRest := by
  have hb := h.1
  unfold State.encodeMove
  split
  · unfold State.encodeGeometry
    split
    · exact .inl (encodeStep_encoding hb (by decide) (by decide))
    · exact .inr (raise_encode_atRest ..)
  · unfold State.encodeDimensions
    split
    · exact .inl (encodeStep_encoding hb (by decide) (by decide))
    · exact .inr (raise_encode_atRest ..)
  · unfold State.encodePixel
    split
    · unfold State.pixelOk State.storeGroup
      split_ifs
      · exact .inl (by simpa [State.encoding] using h)
      · exact .inl (by simpa [State.encoding] using h)
      · exact .inl (by simpa [State.encoding] using h)
      · exact .inl (encodeStep_encoding (by simpa using hb) (by decide) (by decide))
    · exact .inr (raise_encode_atRest ..)
  · exact .inl (encodeStep_encoding hb (by decide) (by decide))
  · exact .inr ⟨rfl, rfl⟩
  · exact .inr ⟨rfl, rfl⟩

/-- The invariant of the cursor: at rest, inside ENCODE, or at an item of the controller. -/
theorem cursorInvariant_iff (s : State) : cursorInvariant s ↔ s.atRest ∨ s.encoding ∨ s.onItem := by
  constructor
  · rintro ⟨⟨hbusy, hnone⟩, hlegal⟩
    unfold cursorLegal at hlegal
    cases ho : s.seq.op <;> simp only [ho] at hlegal hnone hbusy
    case none => exact .inl ⟨by simpa using hbusy, hnone trivial⟩
    case encode => exact .inr (.inl ⟨hbusy.2 (by simp), ho, hlegal⟩)
    all_goals exact .inr (.inr ⟨hbusy.2 (by simp), hlegal⟩)
  · rintro (⟨hb, hs⟩ | ⟨hb, ho, hlegal⟩ | ⟨hb, hitem⟩)
    · exact ⟨⟨by simp [hb, hs, noOperation], fun _ => hs⟩, by simp [cursorLegal, hs, noOperation]⟩
    · exact ⟨⟨by simp [hb, ho], by simp [ho]⟩, by simpa [cursorLegal, ho] using hlegal⟩
    · obtain ⟨a, ha⟩ := Option.isSome_iff_exists.1 hitem
      obtain ⟨hnone, henc⟩ := op_ne_of_action ha
      refine ⟨⟨by simp [hb, hnone], fun h => absurd h hnone⟩, ?_⟩
      unfold cursorLegal
      cases ho : s.seq.op <;> simp_all

/-- While BUSY = 0 the cursor is between operations (R18). -/
theorem seq_of_idle {s : State} (h : cursorInvariant s) (hb : s.busy = false) : s.seq = noOperation := by
  rcases (cursorInvariant_iff s).1 h with hr | henc | hi
  · exact hr.2
  · rw [henc.1] at hb; cases hb
  · rw [hi.1] at hb; cases hb

/-- While a controller's operation runs, the cursor stands at an item. -/
theorem action_of_cursorInvariant {s : State} (h : cursorInvariant s) (hb : s.busy = true) (ho : s.seq.op ≠ .encode) :
    ∃ a, actionAt s.seq = some a := by
  rcases (cursorInvariant_iff s).1 h with hr | henc | hi
  · rw [hr.1] at hb; cases hb
  · exact absurd henc.2.1 ho
  · exact Option.isSome_iff_exists.1 hi.2

theorem move_cursorInvariant {s : State} (hb : s.busy = true) (h : cursorInvariant s) : cursorInvariant s.move := by
  rw [cursorInvariant_iff] at h ⊢
  obtain ⟨hb', -⟩ | henc | hitem := h
  · simp [hb] at hb'
  · have : s.move = s.encodeMove := by unfold State.move; rw [henc.2.1]
    rw [this]
    exact (encodeMove_encoding henc).elim (fun h => .inr (.inl h)) .inl
  · exact (move_onItem hitem).elim (fun h => .inr (.inr h)) .inl

theorem accepted_cursorInvariant {op : Op} (ho : op.isHost) (s : State) :
    cursorInvariant (s.acceptCommand op op.firstStep) := by
  rw [cursorInvariant_iff]
  obtain rfl | rfl | rfl | rfl := ho
  · exact .inr (.inl ⟨rfl, rfl, Nat.le_refl 1, Nat.one_le_ofNat, rfl⟩)
  · exact .inr (.inr ⟨rfl, rfl⟩)
  · exact .inr (.inr ⟨rfl, rfl⟩)
  · exact .inr (.inr ⟨rfl, rfl⟩)

theorem keptByStep_cursorInvariant : KeptByStep cursorInvariant := by
  refine ⟨fun _ _ _ _ _ _ _ h => h, fun u a v _ h => ?_, fun _ _ _ => ?_, fun _ _ ho _ _ => accepted_cursorInvariant ho _,
    fun _ _ _ _ => ?_, fun _ _ hb h => move_cursorInvariant hb h⟩
  · obtain ⟨_, _, _, _, _, _, _, hu⟩ := storeRegister_cases a v u
    rw [hu]; exact h
  · exact (cursorInvariant_iff _).2 (.inl ⟨rfl, rfl⟩)
  · exact (cursorInvariant_iff _).2 (.inl ⟨rfl, rfl⟩)

/-- Settles O54: an acceptance puts the cursor at a first item, a move at another item or at none. -/
theorem stepKeepsCursorInvariant : Obligations.StepKeepsCursorInvariant :=
  fun _ _ h hs => keptByStep_cursorInvariant.step h hs

end Sys2Proof.Machine
end

section
/-! PROOFS. The invariant of the frame (10_state.md R22, R34; 41_frame_packer.md R81, R84): each move of ENCODE extends what has been
written, and a valid frame is left alone. Settles O55. -/

namespace Sys2Proof.Machine

/-! ### What the invariant depends on -/

theorem frameWhole_congr {s t : State} (h : t.frameSide = s.frameSide) (hw : frameWhole s) : frameWhole t := by
  obtain ⟨hv, hwd, hht, hp, hsec⟩ : t.frameValid = s.frameValid ∧ t.frameWidth = s.frameWidth ∧
      t.frameHeight = s.frameHeight ∧ t.primary = s.primary ∧ t.secondary = s.secondary :=
    ⟨congrArg FrameSide.frameValid h, congrArg FrameSide.frameWidth h, congrArg FrameSide.frameHeight h,
      congrArg FrameSide.primary h, congrArg FrameSide.secondary h⟩
  simpa [frameWhole, primaryHeld, secondaryZero, State.frameLength, hv, hwd, hht, hp, hsec] using hw

theorem frameWhole_of_invalid {s : State} (h : s.frameValid = false) : frameWhole s := fun hv => by simp [h] at hv

/-- Outside ENCODE the invariant says that a valid frame is whole. -/
theorem frameInvariant_of_not_encode {s : State} (h : s.seq.op ≠ .encode) (hw : frameWhole s) : frameInvariant s :=
  ⟨hw, fun ho => absurd ho h, fun ho => absurd ho h⟩

/-- During ENCODE, after its first move, no frame is valid. -/
theorem frameInvariant_of_progress {s : State} (hb : s.busy = true) (hv : s.frameValid = false) (hp : encodeProgress s) :
    frameInvariant s := ⟨frameWhole_of_invalid hv, hp, fun _ => hb⟩

/-- While BUSY = 1 a write that is not dropped is of an offset that no RW register has. -/
theorem storeRegister_of_busy {a : Nat} {s : State} (hb : s.busy = true) (hd : ¬ s.writeDropped a) (v : Word) :
    s.storeRegister a v = s := by
  refine storeRegister_other (fun ha => hd ?_) v s
  simp only [List.mem_cons, List.not_mem_nil, or_false] at ha
  simp only [State.writeDropped, List.mem_cons, List.not_mem_nil, or_false, hb, true_or, and_true]
  omega

/-! ### The geometry of the pixel cursor -/

theorem groupsPerRow_eq (s : State) : s.groupsPerRow = s.encWidth.toNat / 8 := rfl

/-- L of a valid geometry is H rows of W/8 groups (R77, R78). -/
theorem encLength_eq {s : State} (hg : geometryValid s.encWidth.toNat s.encHeight.toNat = true) :
    s.encLength = s.encHeight.toNat * s.groupsPerRow := by
  obtain ⟨-, -, h8, -⟩ := (geometryValid_iff ..).1 hg
  show s.encWidth.toNat * s.encHeight.toNat / 8 = s.encHeight.toNat * (s.encWidth.toNat / 8)
  rw [Nat.mul_comm, Nat.mul_div_assoc _ (Nat.dvd_of_mod_eq_zero h8)]

theorem primaryHeld_zero (s : State) : primaryHeld 0 s := fun i hi => absurd hi (Nat.not_lt_zero i)

/-- One more byte of PRIMARY is written. -/
theorem primaryHeld_succ {l : Nat} {s t : State} {b : Byte} (h : primaryHeld l s) (ht : t.primary = memorySet s.primary l b) :
    primaryHeld (l + 1) t := by
  intro i hi
  show ∃ c, memoryGet t.primary i = some c
  rw [ht]
  rcases Nat.lt_succ_iff_lt_or_eq.1 hi with hlt | rfl
  · rw [memoryGet_memorySet_other _ _ (Nat.ne_of_lt hlt)]; exact h i hlt
  · exact ⟨b, memoryGet_memorySet_same ..⟩

/-! ### The moves of ENCODE -/

/-- What step 3 has done so far (R81): no frame is valid, and the groups before the pixel cursor's are written. -/
structure Packing (s : State) : Prop where
  invalid : s.frameValid = false
  geometry : geometryValid s.encWidth.toNat s.encHeight.toNat = true
  row : s.pixel.y < s.encHeight.toNat
  group : s.pixel.g < s.groupsPerRow
  bit : s.pixel.n < 8
  held : primaryHeld s.groupIndex s

theorem encodeProgress_of_packing {s : State} (hs : s.seq.step = 3) (h : Packing s) : encodeProgress s := by
  intro _
  rw [hs]
  exact ⟨h.invalid, h.geometry, h.row, h.group, h.bit, h.held⟩

theorem packing_of_encodeProgress {s : State} (ho : s.seq.op = .encode) (hs : s.seq.step = 3) (h : encodeProgress s) :
    Packing s := by
  have h := h ho
  rw [hs] at h
  obtain ⟨h1, h2, h3, h4, h5, h6⟩ := h
  exact ⟨h1, h2, h3, h4, h5, h6⟩

/-- A complete group is stored: the groups before the next one are written, or all L bytes. -/
theorem storeGroup_invariant {s : State} (acc : Byte) (hb : s.busy = true) (hs : s.seq.step = 3) (h : Packing s) :
    frameInvariant (s.storeGroup acc) := by
  have hrow : (s.pixel.y + 1) * s.groupsPerRow = s.pixel.y * s.groupsPerRow + s.groupsPerRow := Nat.succ_mul ..
  unfold State.storeGroup
  split
  · rename_i hg
    refine frameInvariant_of_progress hb h.invalid (encodeProgress_of_packing hs
      ⟨h.invalid, h.geometry, h.row, hg, Nat.succ_pos 7, ?_⟩)
    exact primaryHeld_succ h.held (b := acc) rfl
  · rename_i hg
    have hedge : s.pixel.g + 1 = s.groupsPerRow := Nat.le_antisymm h.group (Nat.not_lt.1 hg)
    have hend : s.groupIndex + 1 = (s.pixel.y + 1) * s.groupsPerRow := by unfold State.groupIndex; omega
    split
    · rename_i hy
      refine frameInvariant_of_progress hb h.invalid (encodeProgress_of_packing hs
        ⟨h.invalid, h.geometry, hy, Nat.zero_lt_of_lt h.group, Nat.succ_pos 7, ?_⟩)
      show primaryHeld ((s.pixel.y + 1) * s.groupsPerRow + 0) _
      rw [Nat.add_zero, ← hend]
      exact primaryHeld_succ h.held (b := acc) rfl
    · rename_i hy
      have hbottom : s.pixel.y + 1 = s.encHeight.toNat := Nat.le_antisymm h.row (Nat.not_lt.1 hy)
      refine frameInvariant_of_progress hb h.invalid fun _ => ⟨h.invalid, h.geometry, ?_⟩
      show primaryHeld s.encLength _
      rw [encLength_eq h.geometry, ← hbottom, ← hend]
      exact primaryHeld_succ h.held (b := acc) rfl

theorem pixelOk_invariant {s : State} (b : Nat) (hb : s.busy = true) (hs : s.seq.step = 3) (h : Packing s) :
    frameInvariant (s.pixelOk b) := by
  unfold State.pixelOk
  split
  · rename_i hn
    exact frameInvariant_of_progress hb h.invalid (encodeProgress_of_packing hs
      ⟨h.invalid, h.geometry, h.row, h.group, hn, h.held⟩)
  · exact storeGroup_invariant _ hb hs h

theorem encodePixel_invariant {s : State} (hb : s.busy = true) (hs : s.seq.step = 3) (h : Packing s) :
    frameInvariant s.encodePixel := by
  unfold State.encodePixel
  split
  · refine pixelOk_invariant _ (by simpa using hb) (by simpa using hs) ?_
    obtain ⟨h1, h2, h3, h4, h5, h6⟩ := h
    exact ⟨by simpa using h1, by simpa using h2, by simpa using h3, by simpa [State.groupsPerRow] using h4,
      by simpa using h5, by simpa [State.groupIndex, State.groupsPerRow, primaryHeld] using h6⟩
  · rw [State.pixelFail, raise_encode]
    exact frameInvariant_of_not_encode (by simp [noOperation]) (frameWhole_of_invalid (by simpa using h.invalid))

theorem encodeGeometry_invariant {s : State} (hb : s.busy = true) : frameInvariant s.encodeGeometry := by
  unfold State.encodeGeometry
  split
  · rename_i hg
    exact frameInvariant_of_progress hb rfl fun _ => ⟨rfl, hg⟩
  · rw [raise_encode]
    exact frameInvariant_of_not_encode (by simp [noOperation]) (frameWhole_of_invalid rfl)

theorem encodeDimensions_invariant {s : State} (hb : s.busy = true) (hv : s.frameValid = false)
    (hg : geometryValid s.encWidth.toNat s.encHeight.toNat = true) : frameInvariant s.encodeDimensions := by
  unfold State.encodeDimensions
  split
  · obtain ⟨hw, hh, h8, -⟩ := (geometryValid_iff ..).1 hg
    have hgroup : 0 < s.groupsPerRow := by rw [groupsPerRow_eq]; omega
    refine frameInvariant_of_progress hb hv (encodeProgress_of_packing rfl ⟨hv, hg, hh, hgroup, Nat.succ_pos 7, ?_⟩)
    show primaryHeld (0 * s.groupsPerRow + 0) _
    rw [Nat.zero_mul]
    exact primaryHeld_zero _
  · rw [raise_encode]
    exact frameInvariant_of_not_encode (by simp [noOperation]) (frameWhole_of_invalid hv)

theorem encodeMove_invariant {s : State} (hb : s.busy = true) (ho : s.seq.op = .encode) (h : frameInvariant s) :
    frameInvariant s.encodeMove := by
  obtain ⟨hwhole, hprog, -⟩ := h
  have hp := hprog ho
  unfold State.encodeMove
  split
  · exact encodeGeometry_invariant hb
  · rename_i hs
    rw [hs] at hp
    exact encodeDimensions_invariant hb hp.1 hp.2
  · rename_i hs
    exact encodePixel_invariant hb hs (packing_of_encodeProgress ho hs hprog)
  · rename_i hs
    rw [hs] at hp
    obtain ⟨hv, hg, hheld⟩ := hp
    exact frameInvariant_of_progress hb hv fun _ => ⟨hv, hg, hheld, fun i hi => memoryGet_memoryZero_lt _ hi⟩
  · rename_i hs
    rw [hs] at hp
    obtain ⟨hv, hg, hheld, hzero⟩ := hp
    exact frameInvariant_of_not_encode (by simp [State.encodeCommit, noOperation]) fun _ => ⟨hg, hheld, hzero⟩
  · exact frameInvariant_of_not_encode (by simp [noOperation]) hwhole

/-! ### The obligation -/

theorem move_frameInvariant {s : State} (hb : s.busy = true) (h : frameInvariant s) : frameInvariant s.move := by
  by_cases ho : s.seq.op = .encode
  · have : s.move = s.encodeMove := by unfold State.move; rw [ho]
    rw [this]
    exact encodeMove_invariant hb ho h
  · refine frameInvariant_of_not_encode ?_ (frameWhole_congr (move_frameSide ho) h.1)
    rcases move_op ho with hm | hm | hm <;> rw [hm]
    · exact ho
    · decide
    · decide

theorem stored_frameInvariant {s : State} {a : Nat} {v : Word} (hd : ¬ s.writeDropped a) (h : frameInvariant s) :
    frameInvariant (s.storeRegister a v) := by
  cases hb : s.busy with
  | true => rw [storeRegister_of_busy hb hd]; exact h
  | false =>
    have ho : s.seq.op ≠ .encode := fun ho => by simp [h.2.2 ho] at hb
    obtain ⟨_, _, _, _, _, _, _, hu⟩ := storeRegister_cases a v s
    rw [hu]
    exact frameInvariant_of_not_encode ho h.1

theorem accepted_frameInvariant {op : Op} {s : State} (ho : op.isHost) (h : frameInvariant s) :
    frameInvariant (s.acceptCommand op op.firstStep) := by
  refine ⟨h.1, ?_, fun _ => rfl⟩
  obtain rfl | rfl | rfl | rfl := ho
  · exact fun _ => trivial
  all_goals exact fun hop => absurd hop (by simp)

/-- Settles O55: ENCODE's progress is the strengthening; its last move commits a frame that is whole. -/
theorem stepKeepsFrameWhole : Obligations.StepKeepsFrameWhole := by
  intro s t h hs
  refine KeptByStep.step ?_ h hs
  exact ⟨fun _ _ _ _ _ _ _ h => h, fun _ _ _ hd h => stored_frameInvariant hd h,
    fun _ _ _ => frameInvariant_of_not_encode (by simp [State.unitReset, State.reset]) (frameWhole_of_invalid rfl),
    fun _ _ ho _ h => accepted_frameInvariant ho h,
    fun _ _ _ h => frameInvariant_of_not_encode (by simp [State.completed, noOperation]) h.1,
    fun _ _ hb h => move_frameInvariant hb h⟩

end Sys2Proof.Machine
end

section
/-! PROOFS. The refresh interval (10_state.md R33; 42_panel_sequencer.md R98): what a move does to the trace and to LAST_REFRESH, and
the guard in 64-bit arithmetic. Settles O57. -/

namespace Sys2Proof.Machine

/-! ### The trace after a move -/

theorem encodeMove_trace (s : State) :
    s.encodeMove.trace = s.trace ∨ ∃ x y, s.encodeMove.trace = s.trace ++ [s.entry (.pixRead x y)] := by
  unfold State.encodeMove
  split
  · unfold State.encodeGeometry; split <;> exact .inl (by simp)
  · unfold State.encodeDimensions; split <;> exact .inl (by simp)
  · refine .inr ⟨s.pixel.x, s.pixel.y, ?_⟩
    unfold State.encodePixel
    split
    · rw [(pixelOk_keeps _ _).2.1]; simp [State.entry]
    · simp [State.pixelFail, State.entry]
  · exact .inl rfl
  · exact .inl rfl
  · exact .inl rfl

/-- The event of a move: a PixRead of ENCODE, or the event of the item at the cursor, which CLEANUP holds what it needs for. -/
def State.issues (e : Event) (s : State) : Prop :=
  (s.seq.op = .encode ∧ ∃ x y, e = .pixRead x y) ∨
    ∃ a, actionAt s.seq = some a ∧ s.itemEvent a = some e ∧ (s.seq.op = .cleanup → s.holdsFor a = true)

/-- A move adds at most one entry to the trace (R54). -/
theorem moved_trace {s t : State} (h : Moved s t) :
    t.trace = s.trace ∨ ∃ e, s.issues e ∧ t.trace = s.trace ++ [s.entry e] := by
  cases h with
  | packed ho =>
    rcases encodeMove_trace s with h | ⟨x, y, h⟩
    · exact .inl h
    · exact .inr ⟨_, .inl ⟨ho, x, y, rfl⟩, h⟩
  | skipped => exact .inl (by simp)
  | ran a _ ha hh hi =>
    rcases itemMove_trace hi with ⟨-, h⟩ | ⟨e, he, h⟩
    · exact .inl h
    · exact .inr ⟨e, .inr ⟨a, ha, he, hh⟩, h⟩
  | ended => exact .inl rfl

/-! ### LAST_REFRESH after a move -/

theorem issue_refresh (a : Action) (e : Event) (s : State) :
    (a ≠ .wire .refresh → (s.issue a e).lastRefresh = s.lastRefresh ∧ (s.issue a e).lastRefreshValid = s.lastRefreshValid) ∧
      (a = .wire .refresh → (s.issue a e).lastRefresh = s.now64 ∧ (s.issue a e).lastRefreshValid = true) := by
  unfold State.issue
  split
  · rename_i h; exact ⟨fun hn => absurd h hn, fun _ => by simp⟩
  · rename_i h; exact ⟨fun _ => by simp, fun hn => absurd hn h⟩

@[simp] theorem effect_lastRefresh (a : Action) (s : State) : (a.effect s).lastRefresh = s.lastRefresh := by
  cases a <;> rfl
@[simp] theorem effect_lastRefreshValid (a : Action) (s : State) : (a.effect s).lastRefreshValid = s.lastRefreshValid := by
  cases a <;> rfl

/-- REFRESH records its time, whether or not its write succeeds; no other item writes LAST_REFRESH (R33, R119). -/
theorem itemMove_refresh {s t : State} {a : Action} (h : ItemMove s a t) :
    (a ≠ .wire .refresh → t.lastRefresh = s.lastRefresh ∧ t.lastRefreshValid = s.lastRefreshValid) ∧
      (a = .wire .refresh → t.lastRefresh = s.now64 ∧ t.lastRefreshValid = true) := by
  cases h with
  | done _ e => simpa using issue_refresh a e s
  | failed _ e => simpa using issue_refresh a e s
  | _ => simp

/-- The REFRESH write is the item at `refreshPos`, and no other. -/
theorem refreshPos_iff {c : Cursor} {a : Action} (h : actionAt c = some a) : c = refreshPos ↔ a = .wire .refresh :=
  of_scripts (Q := fun c a => c = refreshPos ↔ a = .wire .refresh) (by decide) h

/-- A move that is not REFRESH's leaves LAST_REFRESH. -/
theorem moved_refresh {s t : State} (h : Moved s t) (hn : s.seq ≠ refreshPos) :
    t.lastRefresh = s.lastRefresh ∧ t.lastRefreshValid = s.lastRefreshValid := by
  cases h with
  | packed ho =>
    have hs := (encodeMove_packing (.inl ho)).2.1
    exact ⟨congrArg SessionSide.lastRefresh hs, congrArg SessionSide.lastRefreshValid hs⟩
  | skipped => simp
  | ran a _ ha _ hi => exact (itemMove_refresh hi).1 (mt (refreshPos_iff ha).2 hn)
  | ended => exact ⟨rfl, rfl⟩

/-! ### The guard -/

/-- The cursor is past the refresh guard and not past the REFRESH write. -/
def pastGuard (c : Cursor) : Bool :=
  decide (c.op = .sendImage ∧ ((2 ≤ c.step ∧ c.step ≤ 4) ∨ (c.step = 5 ∧ c.item = 0)))

theorem guardPassed_iff (s : State) : guardPassed s ↔ pastGuard s.seq = true := by
  unfold guardPassed pastGuard
  exact decide_eq_true_iff.symm

/-- Only the guard's own item leads past it. -/
theorem pastGuard_next {c d : Cursor} {a : Action} (ha : actionAt c = some a) (hn : nextItem c = some d)
    (hd : pastGuard d = true) : a = .test .refreshAllowed ∨ (pastGuard c = true ∧ c ≠ refreshPos) := by
  have h := of_scripts (Q := fun c a => (nextItem c).any pastGuard = true →
    a = .test .refreshAllowed ∨ (pastGuard c = true ∧ c ≠ refreshPos)) (by decide) ha
  exact h (by rw [hn]; exact hd)

/-- The move leads past the guard from past it, or by the test that the guard is open. -/
theorem moved_pastGuard {s t : State} (h : Moved s t) (ht : guardPassed t) :
    (guardPassed s ∧ s.seq ≠ refreshPos) ∨ (s.seq ≠ refreshPos ∧ s.refreshAllowed = true) := by
  rw [guardPassed_iff] at ht ⊢
  have landed {a : Action} (ha : actionAt s.seq = some a) (hl : Landing s a t) :
      (pastGuard s.seq = true ∧ s.seq ≠ refreshPos) ∨ (s.seq ≠ refreshPos ∧ s.refreshAllowed = true) := by
    cases hl with
    | stays hw hseq =>
      have hne : a ≠ .wire .refresh := by rintro rfl; cases hw
      exact .inl ⟨hseq ▸ ht, mt (refreshPos_iff ha).1 hne⟩
    | next c hn hgood hseq =>
      rcases pastGuard_next ha hn (hseq ▸ ht) with rfl | h
      · exact .inr ⟨fun h => (by cases (refreshPos_iff ha).1 h), hgood.1 _ rfl⟩
      · exact .inl h
    | closes _ _ hseq => rw [hseq] at ht; cases ht
    | stops _ _ _ hseq => rw [hseq] at ht; cases ht
    | cleansUp _ hseq => rw [hseq] at ht; cases ht
    | skipsWait ho _ hseq => rw [hseq] at ht; rcases ho with ho | ho <;> rw [ho] at ht <;> cases ht
  cases h with
  | packed ho =>
    have hop : s.encodeMove.seq.op ≠ .sendImage := by
      rcases (encodeMove_packing (.inl ho)).1 with h | h <;> rw [h] <;> decide
    exact absurd (of_decide_eq_true ht).1 hop
  | skipped a ha hc _ => exact landed ha (skipped_landing ha hc)
  | ran a _ ha _ hi => exact landed ha (itemMove_landing hi ha)
  | ended => cases ht

/-- The 64-bit guard is open only 180 000 ms after the time it holds, for a time that is not in the future (R98). -/
theorem guard_interval {now t : Nat} (hle : t ≤ now)
    (h : 180000 ≤ (BitVec.ofNat 64 now - BitVec.ofNat 64 t).toNat) : t + 180000 ≤ now := by
  rw [BitVec.toNat_sub, BitVec.toNat_ofNat, BitVec.toNat_ofNat] at h
  omega

/-! ### The attempts in the trace -/

theorem refreshTimes_concat (t : List Entry) (e : Entry) :
    refreshTimes (t ++ [e]) = refreshTimes t ++ if e.pos = refreshPos then [e.time] else [] := by
  unfold refreshTimes
  split <;> simp_all

/-- Of times that are pairwise apart, the last is the latest. -/
theorem le_getLast_of_pairwise {ts : List Nat} {m t x : Nat} (h : ts.Pairwise (fun a b => a + m ≤ b))
    (ht : ts.getLast? = some t) (hx : x ∈ ts) : x ≤ t := by
  obtain ⟨init, rfl⟩ := List.getLast?_eq_some_iff.1 ht
  rcases List.mem_append.1 hx with hx | hx
  · exact Nat.le_of_add_right_le ((List.pairwise_append.1 h).2.2 x hx t (List.mem_singleton_self t))
  · exact Nat.le_of_eq (List.mem_singleton.1 hx)

/-! ### The obligation -/

/-- A move that issues no REFRESH adds no attempt, and keeps what LAST_REFRESH says. -/
theorem refreshInvariant_of_other {s t : State} (h : refreshInvariant s) (hm : Moved s t) (hnow : s.now ≤ t.now)
    (hn : s.seq ≠ refreshPos) (ht : refreshTimes t.trace = refreshTimes s.trace) : refreshInvariant t := by
  obtain ⟨hpair, hlast⟩ := h
  obtain ⟨hr, hv⟩ := moved_refresh hm hn
  refine ⟨ht ▸ hpair, fun x hx => ?_⟩
  obtain ⟨hle, hvalid, hreg, hguard⟩ := hlast x (ht ▸ hx)
  refine ⟨hle.trans hnow, hv.trans hvalid, hr.trans hreg, fun hg => ?_⟩
  rcases moved_pastGuard hm hg with ⟨hgs, -⟩ | ⟨-, hopen⟩
  · exact (hguard hgs).trans hnow
  · refine Nat.le_trans (guard_interval hle ?_) hnow
    simpa [State.refreshAllowed, hvalid, hreg, State.now64, Config.minRefreshIntervalMs] using hopen

/-- The REFRESH write is far enough from the attempts before it, and becomes the latest. -/
theorem refreshInvariant_of_refresh {s t : State} (h : refreshInvariant s) (hm : Moved s t) (hnow : s.now ≤ t.now)
    (hpos : s.seq = refreshPos) : refreshInvariant t := by
  obtain ⟨hpair, hlast⟩ := h
  have hguard : guardPassed s := by rw [guardPassed_iff, hpos]; rfl
  have ha : actionAt s.seq = some (.wire .refresh) := by rw [hpos]; rfl
  cases hm with
  | packed ho => rw [hpos] at ho; cases ho
  | skipped _ _ hc _ => rw [hpos] at hc; cases hc
  | ended _ hn => rw [ha] at hn; cases hn
  | ran a _ ha' _ hi =>
    obtain rfl : .wire .refresh = a := Option.some.inj (ha.symm.trans ha')
    obtain ⟨hr, hv⟩ := (itemMove_refresh hi).2 rfl
    obtain ⟨⟨k, hk⟩, -⟩ | ⟨e, -, htr⟩ := itemMove_trace hi
    · cases hk
    have htimes : refreshTimes t.trace = refreshTimes s.trace ++ [s.now] := by
      rw [htr, refreshTimes_concat, if_pos (by simpa using hpos)]; rfl
    refine ⟨?_, fun x hx => ?_⟩
    · rw [htimes]
      refine List.pairwise_append.2 ⟨hpair, List.pairwise_singleton _ _, fun x hx y hy => ?_⟩
      obtain rfl := List.mem_singleton.1 hy
      obtain ⟨l, hl⟩ := Option.ne_none_iff_exists'.1 (mt List.getLast?_eq_none_iff.1 (List.ne_nil_of_mem hx))
      obtain ⟨-, -, -, hfar⟩ := hlast l hl
      exact Nat.le_trans (Nat.add_le_add_right (le_getLast_of_pairwise hpair hl hx) _) (hfar hguard)
    · obtain rfl : s.now = x := by simpa [htimes] using hx
      refine ⟨hnow, hv, hr, fun hg => ?_⟩
      rcases moved_pastGuard (.ran _ _ ha' (by simp [hpos, refreshPos]) hi) hg with ⟨-, hne⟩ | ⟨hne, -⟩
      · exact absurd hpos hne
      · exact absurd hpos hne

theorem move_refreshInvariant {s : State} (h : refreshInvariant s) : refreshInvariant s.move := by
  have hm := move_moved s
  have hnow := move_now_le s
  by_cases hpos : s.seq = refreshPos
  · exact refreshInvariant_of_refresh h hm hnow hpos
  · refine refreshInvariant_of_other h hm hnow hpos ?_
    rcases moved_trace hm with ht | ⟨e, -, ht⟩
    · rw [ht]
    · rw [ht, refreshTimes_concat, if_neg (by simpa using hpos), List.append_nil]

/-- Time that passes keeps the invariant; what else it reads is the cursor, the trace and LAST_REFRESH. -/
theorem refreshInvariant_mono {s t : State} (h : refreshInvariant s) (htr : t.trace = s.trace) (hnow : s.now ≤ t.now)
    (hr : t.lastRefresh = s.lastRefresh) (hv : t.lastRefreshValid = s.lastRefreshValid)
    (hg : guardPassed t → guardPassed s) : refreshInvariant t := by
  obtain ⟨hpair, hlast⟩ := h
  refine ⟨htr ▸ hpair, fun x hx => ?_⟩
  obtain ⟨hle, hvalid, hreg, hguard⟩ := hlast x (htr ▸ hx)
  exact ⟨hle.trans hnow, hv.trans hvalid, hr.trans hreg, fun h => (hguard (hg h)).trans hnow⟩

theorem not_guardPassed_of_accepted {op : Op} (ho : op.isHost) (s : State) :
    ¬ guardPassed (s.acceptCommand op op.firstStep) := by
  rw [guardPassed_iff]
  obtain rfl | rfl | rfl | rfl := ho <;> exact Bool.false_ne_true

/-- Settles O57: an attempt is past the guard (`refreshInvariant_of_refresh`), and only the guard's test leads past it. -/
theorem stepKeepsRefreshInterval : Obligations.StepKeepsRefreshInterval := by
  intro s t h hs
  refine KeptByStep.step ?_ h hs
  refine ⟨fun u _ _ _ _ _ d h => ?_, fun u a v _ h => ?_, fun _ _ _ => ?_, fun u _ ho _ h => ?_, fun u _ _ h => ?_,
    fun _ _ _ h => move_refreshInvariant h⟩
  · exact refreshInvariant_mono h rfl (Nat.le_add_right _ _) rfl rfl id
  · obtain ⟨_, _, _, _, _, _, _, hu⟩ := storeRegister_cases a v u
    rw [hu]; exact h
  · exact ⟨.nil, fun x hx => by cases hx⟩
  · exact refreshInvariant_mono h rfl (Nat.le_refl _) rfl rfl (fun hg => absurd hg (not_guardPassed_of_accepted ho _))
  · refine refreshInvariant_mono h rfl (Nat.le_refl _) rfl rfl fun hg => ?_
    rw [guardPassed_iff] at hg
    cases hg

end Sys2Proof.Machine
end

section
/-! PROOFS. The handles as the trace accounts for them (10_state.md R24; 20_memory.md R56, R57; 42_panel_sequencer.md R104): what an
item's entry says of a line and of the bus is what the item does to EXPORTED and BUS_OPEN. Settles O59. -/

namespace Sys2Proof.Machine

/-! ### The line numbers -/

/-- The five lines, in the order of `LineNumbers.five`. -/
def allLines : List Line := [.power, .cs, .dc, .busy, .reset]

theorem mem_allLines (l : Line) : l ∈ allLines := by cases l <;> decide

/-- Accepted parameters give the five roles distinct lines, none of them the reserved one or line 25 (R9, R90). -/
theorem lines_of_paramsOk {p : Params} (h : paramsOk p = true) :
    (allLines.map (LineNumbers.of p.lines)).Nodup ∧ p.lines.reserved ∉ LineNumbers.five p.lines ∧
      Config.reservedLine ∉ LineNumbers.five p.lines := by
  simp only [paramsOk, Bool.and_eq_true, decide_eq_true_eq] at h
  obtain ⟨⟨⟨⟨-, hnd⟩, hres⟩, h25⟩, -⟩ := h
  exact ⟨hnd, hres, h25⟩

theorem lineNumber_mem (s : State) (l : Line) : s.lineNumber l ∈ LineNumbers.five s.params.lines :=
  List.mem_map_of_mem (f := LineNumbers.of s.params.lines) (mem_allLines l)

theorem lineNumber_inj {s : State} (hp : paramsOk s.params = true) {l m : Line} : s.lineNumber l = s.lineNumber m ↔ l = m :=
  ⟨fun h => List.inj_on_of_nodup_map (lines_of_paramsOk hp).1 (mem_allLines l) (mem_allLines m) h, fun h => h ▸ rfl⟩

/-! ### One entry -/

theorem Exported.get_put (e : Exported) (m l : Line) (v : Bool) : (e.put m v).get l = if m = l then v else e.get l := by
  cases m <;> cases l <;> rfl

/-- An item's event that succeeds takes or releases the line that its effect marks (R56). -/
theorem heldAfter_entry {s : State} {a : Action} {e : Event} (hp : paramsOk s.params = true) (he : s.itemEvent a = some e)
    (hok : s.outcomeOf e s.answer ≠ .fail) (l : Line) :
    heldAfter (s.lineNumber l) (s.exported.get l) (s.entry e) = (a.effect s).exported.get l := by
  cases a with
  | test c => cases he
  | exportLine m => cases he; simp [heldAfter, hok, lineNumber_inj hp, Action.effect, Exported.get_put]
  | unexportLine m => cases he; simp [heldAfter, hok, lineNumber_inj hp, Action.effect, Exported.get_put]
  | waitBusy b =>
    rcases itemEvent_of_wait he with rfl | rfl <;> simp [heldAfter, Action.effect]
  | _ => cases he; simp [heldAfter, hok, Action.effect]

/-- An item's event that succeeds opens or closes the bus as its effect marks it (R57). -/
theorem openAfter_entry {s : State} {a : Action} {e : Event} (he : s.itemEvent a = some e)
    (hok : s.outcomeOf e s.answer ≠ .fail) : openAfter s.busOpen (s.entry e) = (a.effect s).busOpen := by
  cases a with
  | test c => cases he
  | busOpen => cases he; simp [openAfter, hok, Action.effect]
  | busClose => cases he; simp [openAfter, hok, Action.effect]
  | waitBusy b =>
    rcases itemEvent_of_wait he with rfl | rfl <;> simp [openAfter, Action.effect]
  | _ => cases he; simp [openAfter, hok, Action.effect]

/-- After a move at an item, the handles are those that its entry accounts for. -/
theorem itemMove_accounted {s t : State} {a : Action} {e : Event} (hp : paramsOk s.params = true) (h : ItemMove s a t)
    (he : s.itemEvent a = some e) :
    (∀ l, t.exported.get l = heldAfter (s.lineNumber l) (s.exported.get l) (s.entry e)) ∧
      t.busOpen = openAfter s.busOpen (s.entry e) := by
  by_cases hf : s.outcomeOf e s.answer = .fail
  · have hsame : t.exported = s.exported ∧ t.busOpen = s.busOpen := by
      rcases itemMove_handles h with ⟨h1, h2, h3⟩ | ⟨h1, h2, -⟩
      · rcases h3 e he with h3 | h3
        · exact ⟨h3 ▸ h1, h3 ▸ h2⟩
        · exact absurd hf h3
      · exact ⟨h1, h2⟩
    exact ⟨fun l => by rw [heldAfter_fail hf, hsame.1], by rw [openAfter_fail hf, hsame.2]⟩
  · rcases itemMove_handles h with ⟨h1, h2, -⟩ | ⟨-, -, e', he', hf'⟩
    · exact ⟨fun l => by rw [heldAfter_entry hp he hf, h1], by rw [openAfter_entry he hf, h2]⟩
    · cases he.symm.trans he'
      exact absurd hf' hf

/-! ### CLEANUP's items -/

/-- CLEANUP takes no line and does not open the bus (R104). -/
theorem cleanup_acquires_nothing {c : Cursor} {a : Action} (hc : c.op = .cleanup) (ha : actionAt c = some a) :
    (∀ l, a ≠ .exportLine l) ∧ a ≠ .busOpen :=
  of_script (op := .cleanup) (Q := fun _ a => (∀ l, a ≠ .exportLine l) ∧ a ≠ .busOpen)
    (by simp [Op.script, Op.table, shutdownTable]) hc ha

/-- An item of CLEANUP that is not skipped acts on what is held. -/
theorem cleanup_event_held {s : State} {a : Action} {e : Event} (hc : s.seq.op = .cleanup) (ha : actionAt s.seq = some a)
    (hh : s.holdsFor a = true) (he : s.itemEvent a = some e) :
    (∀ n, e.line? = some n → ∃ l, n = s.lineNumber l ∧ s.exported.get l = true) ∧
      (e = .busClose ∨ (∃ bytes, e = .busWrite bytes) → s.busOpen = true) := by
  obtain ⟨hexp, hopen⟩ := cleanup_acquires_nothing hc ha
  cases a with
  | test c => cases he
  | exportLine l => exact absurd rfl (hexp l)
  | busOpen => exact absurd rfl hopen
  | waitBusy b =>
    obtain ⟨hbus, hbusy⟩ : s.busOpen = true ∧ s.exported.busy = true := by simpa [State.holdsFor] using hh
    refine ⟨fun n hn => ⟨.busy, ?_, hbusy⟩, fun _ => hbus⟩
    rcases itemEvent_of_wait he with rfl | rfl
    · exact (Option.some.inj hn).symm
    · cases hn
  | setDir l d => cases he; exact ⟨fun n hn => ⟨l, (Option.some.inj hn).symm, hh⟩, by simp⟩
  | set l v => cases he; exact ⟨fun n hn => ⟨l, (Option.some.inj hn).symm, hh⟩, by simp⟩
  | setBestEffort l v => cases he; exact ⟨fun n hn => ⟨l, (Option.some.inj hn).symm, hh⟩, by simp⟩
  | unexportLine l => cases he; exact ⟨fun n hn => ⟨l, (Option.some.inj hn).symm, hh⟩, by simp⟩
  | busConfig => cases he; exact ⟨fun n hn => (by cases hn), by simp⟩
  | busClose => cases he; exact ⟨fun n hn => (by cases hn), fun _ => hh⟩
  | delay ms => cases he; exact ⟨fun n hn => (by cases hn), by simp⟩
  | wire w => cases he; exact ⟨fun n hn => (by cases hn), fun _ => hh⟩

/-! ### The obligation -/

/-- The invariant reads the parameters, the handles and the trace. -/
theorem handlesInvariant_congr {s t : State} (hp : t.params = s.params) (he : t.exported = s.exported)
    (hb : t.busOpen = s.busOpen) (htr : t.trace = s.trace) (h : handlesInvariant s) : handlesInvariant t := by
  simpa [handlesInvariant, State.lineNumber, hp, he, hb, htr] using h

/-- One more entry, for which the handles account. -/
theorem handlesInvariant_concat {s t : State} {e : Event} (h : handlesInvariant s) (hp : t.params = s.params)
    (htr : t.trace = s.trace ++ [s.entry e])
    (hacc : (∀ l, t.exported.get l = heldAfter (s.lineNumber l) (s.exported.get l) (s.entry e)) ∧
      t.busOpen = openAfter s.busOpen (s.entry e))
    (hcl : s.seq.op = .cleanup → (∀ n, e.line? = some n → ∃ l, n = s.lineNumber l ∧ s.exported.get l = true) ∧
      (e = .busClose ∨ (∃ bytes, e = .busWrite bytes) → s.busOpen = true)) : handlesInvariant t := by
  obtain ⟨hlines, hbus, hclean⟩ := h
  have hnum (l : Line) : t.lineNumber l = s.lineNumber l := by unfold State.lineNumber; rw [hp]
  refine ⟨fun l => ?_, ?_, ?_⟩
  · rw [htr, List.foldl_append, hnum, ← hlines l]; exact hacc.1 l
  · rw [htr, List.foldl_append, ← hbus]; exact hacc.2
  · rw [htr, cleanupOnHeld_concat]
    refine ⟨hclean, fun hop => ⟨fun n hn => ?_, fun he => ?_⟩⟩
    · obtain ⟨l, rfl, hl⟩ := (hcl hop).1 n hn
      rw [← hlines l]; exact hl
    · rw [← hbus]; exact (hcl hop).2 he

theorem encode_handlesInvariant {s : State} (ho : s.seq.op = .encode) (h : handlesInvariant s) :
    handlesInvariant s.encodeMove := by
  have hs := (encodeMove_packing (s := s) (.inl ho)).2.1
  have hp : s.encodeMove.params = s.params := congrArg HostSide.params (encodeMove_hostSide s)
  have he : s.encodeMove.exported = s.exported := congrArg SessionSide.exported hs
  have hb : s.encodeMove.busOpen = s.busOpen := congrArg SessionSide.busOpen hs
  rcases encodeMove_trace s with ht | ⟨x, y, ht⟩
  · exact handlesInvariant_congr hp he hb ht h
  · refine handlesInvariant_concat h hp ht ⟨fun l => ?_, ?_⟩ (fun hc => by rw [ho] at hc; cases hc)
    · rw [heldAfter_noLine rfl, he]
    · rw [hb]; unfold openAfter; split <;> rfl

theorem move_handlesInvariant {s : State} (hp : paramsOk s.params = true) (h : handlesInvariant s) :
    handlesInvariant s.move := by
  have hpar : s.move.params = s.params := congrArg HostSide.params (move_hostSide s)
  have hm := move_moved s
  generalize s.move = t at hm hpar
  cases hm with
  | packed ho => exact encode_handlesInvariant ho h
  | skipped => exact handlesInvariant_congr hpar (by simp) (by simp) (by simp) h
  | ended => exact h
  | ran a _ ha hh hi =>
    rcases itemMove_trace hi with ⟨⟨k, rfl⟩, ht⟩ | ⟨e, he, ht⟩
    · rcases itemMove_handles hi with ⟨h1, h2, -⟩ | ⟨-, -, e, he, -⟩
      · exact handlesInvariant_congr hpar h1 h2 ht h
      · cases he
    · exact handlesInvariant_concat h hpar ht (itemMove_accounted hp hi he)
        (fun hc => cleanup_event_held hc ha (hh hc) he)

/-- Settles O59: each entry accounts for what its item does to the handles, and CLEANUP skips what is not held. -/
theorem stepKeepsHandlesAccounted : Obligations.StepKeepsHandlesAccounted := by
  intro s t h hs
  refine KeptByStep.step ?_ h hs
  refine ⟨fun _ _ _ _ _ _ _ h => h, fun u a v _ h => ?_, fun _ _ _ => ?_, fun _ _ _ _ h => h, fun _ _ _ h => h,
    fun _ hp _ h => move_handlesInvariant hp h⟩
  · obtain ⟨_, _, _, _, _, _, _, hu⟩ := storeRegister_cases a v u
    rw [hu]; exact h
  · exact ⟨fun l => by cases l <;> rfl, rfl, cleanupOnHeld_nil⟩

end Sys2Proof.Machine
end

section
/-! PROOFS. The events the unit may issue (20_memory.md R53, R54, R56, R57; 42_panel_sequencer.md R90, R91): each item's event is
allowed at its position, and a payload goes out only with a valid panel geometry. Settles O58. -/

namespace Sys2Proof.Machine

/-! ### The operands of the items -/

/-- A delay of R148, or no delay. -/
def Action.delayListed : Action → Bool
  | .delay ms => decide (ms = 5 ∨ ms = 10 ∨ ms = 150)
  | _ => true

/-- An item that writes the bus inside the payload bracket exactly where its bytes are a payload (R73), or no such item. -/
def Action.bracketed (c : Cursor) : Action → Bool
  | .wire w => payloadPos c == decide (w.channel = .wirePayload)
  | _ => true

theorem delay_of_action {c : Cursor} {ms : Nat} (h : actionAt c = some (.delay ms)) : ms = 5 ∨ ms = 10 ∨ ms = 150 :=
  of_decide_eq_true (of_scripts (Q := fun _ a => a.delayListed = true) (by decide) h)

theorem payloadPos_of_action {c : Cursor} {w : WireItem} (h : actionAt c = some (.wire w)) :
    payloadPos c = decide (w.channel = .wirePayload) :=
  eq_of_beq (of_scripts (Q := fun c a => a.bracketed c = true) (by decide) h)

/-- A payload of a valid geometry is one a layer can have (R54, R77). -/
theorem payload_decodes {s : State} (hg : geometryValid s.panelWidth.toNat s.panelHeight.toNat = true) (l : Layer) :
    ∃ i, decode .wirePayload (s.payload l) = .ok i := by
  obtain ⟨hw, hh, h8, hle⟩ := (geometryValid_iff ..).1 hg
  have hpos : 8 ≤ s.panelWidth.toNat * s.panelHeight.toNat :=
      (show 8 ≤ s.panelWidth.toNat by omega).trans (Nat.le_mul_of_pos_right _ hh)
  have hlen : (s.payload l).length = s.panelWidth.toNat * s.panelHeight.toNat / 8 := by
    simp [State.payload, State.panelLength, layerLength, Config.groupPixels]
  have hok : payloadLengthOk (s.payload l).length := by
    rw [hlen]
    unfold payloadLengthOk Config.layerCapacity
    omega
  exact ⟨_, if_pos hok⟩

/-- The bytes an item writes are those of an instruction on its channel (R68, R71). -/
theorem wireBytes_decode {s : State} (w : WireItem)
    (hg : w.channel = .wirePayload → geometryValid s.panelWidth.toNat s.panelHeight.toNat = true) :
    ∃ i, decode w.channel (s.wireBytes w) = .ok i := by
  cases w with
  | dataPrimary => exact payload_decodes (hg rfl) .primary
  | dataSecondary => exact payload_decodes (hg rfl) .secondary
  | tempComp => exact ⟨.tempComp s.tempCode, by simp [WireItem.channel, State.wireBytes, decode, decodeWire, decodeW2]⟩
  | activate =>
    cases hA : s.activatesA
    · exact ⟨.activateB, by simp only [State.wireBytes, hA]; rfl⟩
    · exact ⟨.activateA, by simp only [State.wireBytes, hA]; rfl⟩
  | softReset | panelSettings | deepSleep | selPrimary | selSecondary | powerOnDisplay | refresh => exact ⟨_, rfl⟩

/-! ### One event -/

theorem eventAllowed_of_line {s : State} {e : Event} {l : Line} (hp : paramsOk s.params = true)
    (he : e.line? = some (s.lineNumber l)) : eventAllowed s.params (s.entry e) := by
  obtain ⟨-, hres, h25⟩ := lines_of_paramsOk hp
  have hmem := lineNumber_mem s l
  refine ⟨fun n hn => ?_, ?_, ?_, ?_, ?_⟩
  · obtain rfl : s.lineNumber l = n := Option.some.inj (he.symm.trans hn)
    exact ⟨hmem, fun h => hres (h ▸ hmem), fun h => h25 (h ▸ hmem)⟩
  all_goals
    intros
    rename_i hev
    rw [show e = _ from hev] at he
    cases he

theorem eventAllowed_delay {s : State} {ms : Nat} (h : ms = 5 ∨ ms = 10 ∨ ms = 150) :
    eventAllowed s.params (s.entry (.delay ms)) := by
  simpa [eventAllowed, Event.line?] using h

theorem eventAllowed_pixRead (s : State) (x y : Nat) : eventAllowed s.params (s.entry (.pixRead x y)) := by
  simp [eventAllowed, Event.line?]

theorem eventAllowed_busConfig {s : State} (hp : paramsOk s.params = true) :
    eventAllowed s.params (s.entry (.busConfig s.params.busMode s.params.busWordBits s.params.busClockHz)) := by
  simp only [paramsOk, Bool.and_eq_true, decide_eq_true_eq] at hp
  obtain ⟨⟨⟨⟨⟨⟨⟨hlo, hhi⟩, hbits⟩, hmode⟩, -⟩, -⟩, -⟩, -⟩ := hp
  simp [eventAllowed, Event.line?, hlo, hhi, hbits, hmode]

/-- At a payload item SESSION is 1, and the panel geometry valid (R30, R106). -/
theorem panel_valid_of_payload {s : State} (h : panelInvariant s) (hpos : payloadPos s.seq = true) :
    geometryValid s.panelWidth.toNat s.panelHeight.toNat = true := by
  simp only [payloadPos, Bool.and_eq_true, beq_iff_eq] at hpos
  obtain ⟨⟨ho, h2⟩, -⟩ := hpos
  refine h.1 (h.2.2.1 ho ?_)
  simp [pastSessionTest, ho, h2, Op.firstStep]

theorem eventAllowed_wire {s : State} {w : WireItem} (h : panelInvariant s) (ha : actionAt s.seq = some (.wire w)) :
    eventAllowed s.params (s.entry (.busWrite (s.wireBytes w))) := by
  have hpos := payloadPos_of_action ha
  have hchan : (if payloadPos s.seq then Channel.wirePayload else .wireCommand) = w.channel := by
    rw [hpos]; cases w <;> rfl
  obtain ⟨i, hi⟩ := wireBytes_decode (s := s) w fun hw => panel_valid_of_payload h (by simp [hpos, hw])
  refine ⟨by simp [Event.line?], by simp, by simp, fun bytes hb => ⟨i, ?_⟩, by simp⟩
  obtain rfl : s.wireBytes w = bytes := Event.busWrite.inj hb
  rw [entry_pos, hchan]
  exact hi

/-- What a move issues is allowed. -/
theorem eventAllowed_of_issues {s : State} {e : Event} (hp : paramsOk s.params = true) (h : panelInvariant s)
    (he : s.issues e) : eventAllowed s.params (s.entry e) := by
  obtain ⟨-, x, y, rfl⟩ | ⟨a, ha, he, -⟩ := he
  · exact eventAllowed_pixRead s x y
  cases a with
  | test c => cases he
  | waitBusy b =>
    rcases itemEvent_of_wait he with rfl | rfl
    · exact eventAllowed_of_line (l := .busy) hp rfl
    · exact eventAllowed_delay (.inl rfl)
  | delay ms => cases he; exact eventAllowed_delay (delay_of_action ha)
  | wire w => cases he; exact eventAllowed_wire h ha
  | busOpen => cases he; simp [eventAllowed, Event.line?]
  | busConfig => cases he; exact eventAllowed_busConfig hp
  | busClose => cases he; simp [eventAllowed, Event.line?]
  | exportLine l => cases he; exact eventAllowed_of_line (l := l) hp rfl
  | setDir l d => cases he; exact eventAllowed_of_line (l := l) hp rfl
  | set l v => cases he; exact eventAllowed_of_line (l := l) hp rfl
  | setBestEffort l v => cases he; exact eventAllowed_of_line (l := l) hp rfl
  | unexportLine l => cases he; exact eventAllowed_of_line (l := l) hp rfl

/-! ### The panel geometry -/

/-- POWER_ON leaves its step 0 by the test of the geometry, and ends after step 1 or later (R95). -/
theorem powerOn_geometry_item {c : Cursor} {a : Action} (ho : c.op = .powerOn) (ha : actionAt c = some a) :
    (∀ d, nextItem c = some d → 1 ≤ d.step → 1 ≤ c.step ∨ a = .test .panelGeometry) ∧ (nextItem c = none → 1 ≤ c.step) :=
  have h := of_script (op := .powerOn) (Q := fun c a =>
    ((nextItem c).any (fun d => decide (1 ≤ d.step)) = true → 1 ≤ c.step ∨ a = .test .panelGeometry) ∧
      (nextItem c = none → 1 ≤ c.step)) (by decide) ho ha
  ⟨fun d hn hd => h.1 (by rw [hn]; exact decide_eq_true hd), h.2⟩

/-- The first item of SEND_IMAGE and of POWER_OFF tests SESSION (R97, R101), that of POWER_ON tests it too (R95). -/
theorem session_item {c : Cursor} {a : Action} (ha : actionAt c = some a) (h1 : c.step = c.op.firstStep) (h0 : c.item = 0) :
    (c.op = .powerOn → a = .test .sessionIdle) ∧ (c.op = .sendImage ∨ c.op = .powerOff → a = .test .sessionActive) :=
  of_scripts (Q := fun c a => c.step = c.op.firstStep → c.item = 0 →
    (c.op = .powerOn → a = .test .sessionIdle) ∧ (c.op = .sendImage ∨ c.op = .powerOff → a = .test .sessionActive))
    (by decide) ha h1 h0

theorem closing_session_cases (s : State) :
    (s.seq.op = .powerOn ∧ s.closing.session = true) ∨
      (s.seq.op ≠ .powerOn ∧ (s.closing.session = s.session ∨ s.closing.session = false)) := by
  unfold State.closing
  cases s.seq.op <;> simp

/-- A landing keeps the invariant of the panel geometry. -/
theorem landing_panelInvariant {s t : State} {a : Action} (h : panelInvariant s) (hb : s.busy = true)
    (ha : actionAt s.seq = some a) (hw : t.panelWidth = s.panelWidth) (hh : t.panelHeight = s.panelHeight)
    (hl : Landing s a t) : panelInvariant t := by
  obtain ⟨hsess, hpow, hsend, -⟩ := h
  have ended (hseq : t.seq = noOperation)
      (hs : t.session = true → geometryValid s.panelWidth.toNat s.panelHeight.toNat = true) : panelInvariant t := by
    unfold panelInvariant
    rw [hseq, hw, hh]
    exact ⟨hs, fun h => (by cases h), fun h => (by cases h), fun h => absurd rfl h⟩
  have elsewhere (ho1 : t.seq.op ≠ .powerOn) (ho2 : t.seq.op ≠ .sendImage) (hb' : t.busy = s.busy)
      (hs : t.session = s.session) : panelInvariant t := by
    unfold panelInvariant
    rw [hw, hh, hs, hb', hb]
    exact ⟨hsess, fun h => absurd h ho1, fun h => absurd h ho2, fun _ => rfl⟩
  cases hl with
  | stays _ hseq hb' hs =>
    unfold panelInvariant pastSessionTest
    rw [hseq, hw, hh, hs, hb', hb]
    exact ⟨hsess, hpow, hsend, fun _ => rfl⟩
  | next c hn hgood hseq hb' hs =>
    have hop := (nextItem_spec hn).2
    unfold panelInvariant
    rw [hseq, hw, hh, hs, hb', hb, hop]
    refine ⟨hsess, fun ho hstep => ?_, fun ho _ => ?_, fun _ => rfl⟩
    · rcases (powerOn_geometry_item ho ha).1 c hn hstep with h1 | rfl
      · exact hpow ho h1
      · exact hgood.1 _ rfl
    · by_cases hpast : s.seq.step = s.seq.op.firstStep ∧ s.seq.item = 0
      · obtain rfl := (session_item ha hpast.1 hpast.2).2 (.inl ho)
        exact hgood.1 _ rfl
      · exact hsend ho hpast
  | closes hn _ hseq _ hs =>
    refine ended hseq fun ht => ?_
    rcases closing_session_cases s with ⟨ho, -⟩ | ⟨-, hc | hc⟩
    · exact hpow ho ((powerOn_geometry_item ho ha).2 hn)
    · exact hsess (hc ▸ hs ▸ ht)
    · rw [hs, hc] at ht; cases ht
  | stops _ _ _ hseq _ hs => exact ended hseq fun ht => hsess (hs ▸ ht)
  | cleansUp _ hseq hb' hs => exact elsewhere (by simp [hseq]) (by simp [hseq]) hb' hs
  | skipsWait ho _ hseq hb' hs =>
    exact elsewhere (by rw [hseq]; rcases ho with ho | ho <;> simp [ho]) (by rw [hseq]; rcases ho with ho | ho <;> simp [ho])
      hb' hs

/-- A move of ENCODE keeps BUSY, or ends the operation. -/
theorem encodeMove_busy (s : State) : s.encodeMove.busy = s.busy ∨ s.encodeMove.seq.op = .none := by
  unfold State.encodeMove
  split
  · unfold State.encodeGeometry
    split
    · exact .inl rfl
    · exact .inr (by rw [raise_encode]; rfl)
  · unfold State.encodeDimensions
    split
    · exact .inl rfl
    · exact .inr (by rw [raise_encode]; rfl)
  · unfold State.encodePixel
    split
    · exact .inl (by rw [(pixelOk_keeps _ _).2.2.2.2, State.emit_busy])
    · exact .inr (by rw [State.pixelFail, raise_encode]; rfl)
  · exact .inl rfl
  · exact .inr rfl
  · exact .inr rfl

theorem move_panelInvariant {s : State} (hb : s.busy = true) (h : panelInvariant s) : panelInvariant s.move := by
  have hw : s.move.panelWidth = s.panelWidth := congrArg HostSide.panelWidth (move_hostSide s)
  have hh : s.move.panelHeight = s.panelHeight := congrArg HostSide.panelHeight (move_hostSide s)
  have hm := move_moved s
  generalize s.move = t at hm hw hh
  cases hm with
  | packed ho =>
    obtain ⟨hpack, hs, -⟩ := encodeMove_packing (s := s) (.inl ho)
    have hsession : s.encodeMove.session = s.session := congrArg SessionSide.session hs
    have hbusy : s.encodeMove.seq.op ≠ .none → s.encodeMove.busy = true := fun hne =>
      (encodeMove_busy s).elim (fun h => h.trans hb) (fun h => absurd h hne)
    unfold panelInvariant
    rw [hw, hh, hsession]
    refine ⟨h.1, fun hop => ?_, fun hop => ?_, hbusy⟩
    · rcases hpack with hp | hp <;> rw [hp] at hop <;> cases hop
    · rcases hpack with hp | hp <;> rw [hp] at hop <;> cases hop
  | skipped a ha hc _ => exact landing_panelInvariant h hb ha hw hh (skipped_landing ha hc)
  | ran a _ ha _ hi => exact landing_panelInvariant h hb ha hw hh (itemMove_landing hi ha)
  | ended => exact ⟨h.1, fun hop => (by cases hop), fun hop => (by cases hop), fun hop => absurd rfl hop⟩

/-! ### The obligation -/

theorem move_traceInvariant {s : State} (hp : paramsOk s.params = true) (hb : s.busy = true) (h : traceInvariant s) :
    traceInvariant s.move := by
  obtain ⟨hpanel, hall⟩ := h
  have hpar : s.move.params = s.params := congrArg HostSide.params (move_hostSide s)
  refine ⟨move_panelInvariant hb hpanel, ?_⟩
  rw [hpar]
  rcases moved_trace (move_moved s) with ht | ⟨e, he, ht⟩
  · rw [ht]; exact hall
  · rw [ht]
    intro x hx
    rcases List.mem_append.1 hx with hx | hx
    · exact hall x hx
    · obtain rfl := List.mem_singleton.1 hx
      exact eventAllowed_of_issues hp hpanel he

/-- A store that is not dropped leaves the panel geometry of a session (R46). -/
theorem storeRegister_panel {a : Nat} {s : State} (hd : ¬ s.writeDropped a) (hs : s.session = true) (v : Word) :
    (s.storeRegister a v).panelWidth = s.panelWidth ∧ (s.storeRegister a v).panelHeight = s.panelHeight := by
  unfold State.storeRegister
  split
  · exact ⟨rfl, rfl⟩
  · exact ⟨rfl, rfl⟩
  · exact ⟨rfl, rfl⟩
  · exact absurd (by simp [State.writeDropped, hs]) hd
  · exact absurd (by simp [State.writeDropped, hs]) hd
  · exact ⟨rfl, rfl⟩
  · exact ⟨rfl, rfl⟩
  · exact ⟨rfl, rfl⟩

/-- A store that is not dropped changes the panel geometry only between sessions and operations (R46). -/
theorem stored_traceInvariant {s : State} {a : Nat} {v : Word} (hd : ¬ s.writeDropped a) (h : traceInvariant s) :
    traceInvariant (s.storeRegister a v) := by
  cases hb : s.busy with
  | true => rw [storeRegister_of_busy hb hd]; exact h
  | false =>
    obtain ⟨⟨hsess, -, -, hbusy⟩, hall⟩ := h
    have hop : s.seq.op = .none := by
      by_contra hne
      rw [hbusy hne] at hb
      cases hb
    have hpanel (hs : s.session = true) := storeRegister_panel hd hs v
    obtain ⟨_, _, _, _, _, _, _, hu⟩ := storeRegister_cases a v s
    rw [hu] at hpanel ⊢
    refine ⟨⟨fun hs => ?_, fun h => ?_, fun h => ?_, hbusy⟩, hall⟩
    · obtain ⟨hw, hh⟩ := hpanel hs
      rw [hw, hh]
      exact hsess hs
    · rw [hop] at h; cases h
    · rw [hop] at h; cases h

/-- An acceptance puts the cursor before the tests of the operation. -/
theorem accepted_panelInvariant {op : Op} {s : State} (h : panelInvariant s) :
    panelInvariant (s.acceptCommand op op.firstStep) := by
  refine ⟨h.1, fun hop h1 => ?_, fun _ hpast => absurd ⟨rfl, rfl⟩ hpast, fun _ => rfl⟩
  obtain rfl : op = .powerOn := hop
  exact absurd h1 (Nat.not_succ_le_zero 0)

/-- Settles O58: each item's event is allowed where the item stands (`eventAllowed_of_issues`). -/
theorem stepKeepsTraceAllowed : Obligations.StepKeepsTraceAllowed := by
  intro s t h hs
  refine KeptByStep.step ?_ h hs
  refine ⟨fun _ _ _ _ _ _ _ h => h, fun _ _ _ hd h => stored_traceInvariant hd h, fun _ _ _ => ?_,
    fun _ _ _ _ h => ⟨accepted_panelInvariant h.1, h.2⟩, fun _ _ _ h => ?_, fun _ hp hb h => move_traceInvariant hp hb h⟩
  · exact ⟨⟨fun h => (by cases h), fun h => (by cases h), fun h => (by cases h), fun h => absurd rfl h⟩,
      by simp [State.unitReset, State.reset]⟩
  · exact ⟨⟨h.1.1, fun h => (by cases h), fun h => (by cases h), fun h => absurd rfl h⟩, h.2⟩

end Sys2Proof.Machine
end

section
/-! PROOFS. The session's handles and lines (10_state.md R24; 42_panel_sequencer.md R93, R95, R97, R107, R108). What each line is at
each cursor position is one table, `lineFits`; every item of the step tables leads from it to it. Settles O56. -/

namespace Sys2Proof.Machine

/-! ### The lines by cursor position -/

/-- The lines of an Active session between operations (R107). -/
def restLine : Line → LineState
  | .power => .output true
  | .reset => .output true
  | .cs => .output false
  | .dc => .output false
  | .busy => .input

/-- The lines at an item of SEND_IMAGE (R97 step 2). -/
def sendImageLine (c : Cursor) : Line → LineState
  | .power => .output true
  | .reset => .output true
  | .cs => .output (csAt c.step c.item)
  | .dc => .output (dcAt c.step c.item)
  | .busy => .input

/-- The lines at an item of POWER_ON's steps 2 to 6, and in step 1 once their direction is set (R95). -/
def powerOnLine (c : Cursor) : Line → LineState
  | .power => .output true
  | .reset => .output (c.step != 1 && resetAt c.step c.item)
  | .cs => .output false
  | .dc => .output false
  | .busy => .input

/-- The first item of POWER_ON's step 1 at which a line's direction is set (R95). -/
def directedAt : Line → Nat
  | .power => 6
  | .reset => 7
  | .cs => 8
  | .dc => 9
  | .busy => 10

/-- The state of a line is what the invariant says of it at a cursor position, if it says anything. -/
def lineFits (session : Bool) (c : Cursor) (l : Line) (st : LineState) : Bool :=
  match c.op with
  | .none => !session || (st == restLine l)
  | .encode => !session || (st == restLine l)
  | .powerOn =>
    if c.step = 0 then !session || (st == restLine l)
    else (c.step == 1 && Nat.blt c.item (directedAt l)) || (st == powerOnLine c l)
  | .sendImage => !session || (st == sendImageLine c l)
  | .powerOff => !session || Nat.ble 2 c.step || (st == restLine l)
  | .cleanup => true

theorem forall_line {p : Line → Prop} : (∀ l, p l) ↔ p .power ∧ p .reset ∧ p .cs ∧ p .dc ∧ p .busy :=
  ⟨fun h => ⟨h _, h _, h _, h _, h _⟩, fun ⟨h1, h2, h3, h4, h5⟩ l => by cases l <;> assumption⟩

theorem linesFollowCursor_iff (s : State) :
    linesFollowCursor s ↔ ∀ l, lineFits s.session s.seq l (s.lineState l) = true := by
  unfold linesFollowCursor sessionLines sendImageLines powerOnLines
  rw [forall_line]
  cases ho : s.seq.op with
  | none => cases s.session <;> simp [lineFits, ho, restLine]
  | encode => cases s.session <;> simp [lineFits, ho, restLine]
  | sendImage => cases s.session <;> simp [lineFits, ho, sendImageLine]
  | cleanup => simp [lineFits, ho]
  | powerOff =>
    rcases Nat.lt_or_ge s.seq.step 2 with h | h
    · cases s.session <;> simp [lineFits, ho, restLine, Nat.not_le.2 h, Nat.le_of_lt_succ h]
    · cases s.session <;> simp [lineFits, ho, h, Nat.not_le.2 h]
  | powerOn =>
    rcases Nat.lt_trichotomy s.seq.step 1 with h | h | h
    · obtain h : s.seq.step = 0 := by omega
      cases s.session <;> simp [lineFits, ho, restLine, h]
    · cases s.session <;>
        simp [lineFits, ho, h, powerOnLine, directedAt, or_iff_not_imp_left]
    · have h2 : 2 ≤ s.seq.step := h
      have h0 : s.seq.step ≠ 0 := by omega
      have h1 : s.seq.step ≠ 1 := by omega
      have hlow : (s.seq.step != 1) = true := bne_iff_ne.2 h1
      cases s.session <;> simp [lineFits, ho, h2, h0, h1, hlow, powerOnLine]

/-! ### What an item does to a line -/

/-- The state a direction gives (R56). -/
def Dir.lineState : Dir → LineState
  | .outHigh => .output true
  | .outLow => .output false
  | .input => .input

/-- A level set on a line in a state (R102). -/
def LineState.setTo (v : Bool) : LineState → LineState
  | .output _ => .output v
  | .released => .released
  | .exportedOnly => .exportedOnly
  | .input => .input

/-- What an item's event that succeeds does to a line. -/
def Action.onLine (l : Line) (st : LineState) : Action → LineState
  | .exportLine m => if m = l then .exportedOnly else st
  | .unexportLine m => if m = l then .released else st
  | .setDir m d => if m = l then d.lineState else st
  | .set m v => if m = l then st.setTo v else st
  | .setBestEffort m v => if m = l then st.setTo v else st
  | .test _ => st
  | .busOpen => st
  | .busConfig => st
  | .busClose => st
  | .delay _ => st
  | .wire _ => st
  | .waitBusy _ => st

theorem lineAfter_fail {e : Entry} (h : e.outcome = .fail) (n : Nat) (st : LineState) : lineAfter n st e = st := by
  simp [lineAfter, h]

/-- An event on no line leaves every line. -/
theorem lineAfter_noLine {e : Entry} (h : e.event.line? = none) (n : Nat) (st : LineState) : lineAfter n st e = st := by
  unfold lineAfter
  split
  · rfl
  · cases he : e.event <;> simp_all [Event.line?]

/-- A poll leaves every line. -/
theorem lineAfter_get {e : Entry} {m : Nat} (h : e.event = .get m) (n : Nat) (st : LineState) : lineAfter n st e = st := by
  unfold lineAfter
  rw [h]
  split <;> rfl

theorem lineAfter_set {s : State} {l m : Line} {v : Bool} (hp : paramsOk s.params = true)
    (hok : s.outcomeOf (.set (s.lineNumber m) v) s.answer ≠ .fail) (st : LineState) :
    lineAfter (s.lineNumber l) st (s.entry (.set (s.lineNumber m) v)) = if m = l then st.setTo v else st := by
  have hok' : (s.entry (.set (s.lineNumber m) v)).outcome ≠ .fail := hok
  unfold lineAfter
  rw [if_neg hok']
  cases st <;> simp [LineState.setTo, lineNumber_inj hp]

/-- The entry of an item's event that succeeds does to a line what the item does. -/
theorem lineAfter_entry {s : State} {a : Action} {e : Event} (hp : paramsOk s.params = true) (he : s.itemEvent a = some e)
    (hok : s.outcomeOf e s.answer ≠ .fail) (l : Line) (st : LineState) :
    lineAfter (s.lineNumber l) st (s.entry e) = a.onLine l st := by
  cases a with
  | test c => cases he
  | exportLine m => cases he; simp [lineAfter, hok, lineNumber_inj hp, Action.onLine]
  | unexportLine m => cases he; simp [lineAfter, hok, lineNumber_inj hp, Action.onLine]
  | setDir m d => cases he; cases d <;> simp [lineAfter, hok, lineNumber_inj hp, Action.onLine, Dir.lineState]
  | set m v => cases he; exact lineAfter_set hp hok st
  | setBestEffort m v => cases he; exact lineAfter_set hp hok st
  | waitBusy b =>
    rcases itemEvent_of_wait he with rfl | rfl
    · exact lineAfter_get rfl _ _
    · exact lineAfter_noLine rfl _ _
  | busOpen => cases he; exact lineAfter_noLine rfl _ _
  | busConfig => cases he; exact lineAfter_noLine rfl _ _
  | busClose => cases he; exact lineAfter_noLine rfl _ _
  | delay ms => cases he; exact lineAfter_noLine rfl _ _
  | wire w => cases he; exact lineAfter_noLine rfl _ _

/-- A line after a move at an item: as the item leaves it, or as it was where the event failed. -/
theorem itemMove_lineState {s t : State} {a : Action} (hp : paramsOk s.params = true) (hpar : t.params = s.params)
    (h : ItemMove s a t) (l : Line) :
    t.lineState l = a.onLine l (s.lineState l) ∨
      (t.lineState l = s.lineState l ∧ ∃ e, s.itemEvent a = some e ∧ s.outcomeOf e s.answer = .fail) := by
  unfold State.lineState lineView State.lineNumber
  rw [hpar]
  rcases itemMove_trace h with ⟨⟨k, rfl⟩, ht⟩ | ⟨e, he, ht⟩
  · rw [ht]; exact .inl rfl
  · rw [ht, List.foldl_append]
    by_cases hf : s.outcomeOf e s.answer = .fail
    · exact .inr ⟨lineAfter_fail hf _ _, e, he, hf⟩
    · exact .inl (lineAfter_entry hp he hf l _)

/-! ### The table -/

/-- SESSION after the last item of an operation (R95, R101, R104). -/
def Op.closingSession (op : Op) (session : Bool) : Bool :=
  match op with
  | .powerOn => true
  | .powerOff => false
  | .cleanup => false
  | .none => session
  | .encode => session
  | .sendImage => session

theorem closing_session_eq (s : State) : s.closing.session = s.seq.op.closingSession s.session := by
  unfold State.closing Op.closingSession
  cases s.seq.op <;> rfl

/-- The preconditions. -/
def allChecks : List Check := [.sessionIdle, .sessionActive, .panelGeometry, .frameHeld, .frameMatches, .refreshAllowed]

theorem mem_allChecks (k : Check) : k ∈ allChecks := by cases k <;> decide

/-- The operation is a shutdown, which goes on after a failed event (R101, R104). -/
def Op.goesOn (op : Op) : Bool := decide (op = .powerOff) || decide (op = .cleanup)

def allLineStates : List LineState := [.released, .exportedOnly, .output true, .output false, .input]

theorem mem_allLineStates (st : LineState) : st ∈ allLineStates := by
  cases st with
  | output v => cases v <;> decide
  | _ => decide

/-- From a line that fits at an item: as the item leaves it, it fits at the next item, and after the last; as it was, it fits
there after a failure in a shutdown, and after a test that does not hold. -/
def lineLeads (session : Bool) (c : Cursor) (a : Action) (l : Line) (st : LineState) : Prop :=
  lineFits session c l st = true →
    (∀ d ∈ nextItem c, lineFits session d l (a.onLine l st) = true ∧ (c.op.goesOn = true → lineFits session d l st = true)) ∧
    (nextItem c = none → lineFits (c.op.closingSession session) noOperation l (a.onLine l st) = true ∧
      (c.op.goesOn = true → lineFits (c.op.closingSession session) noOperation l st = true)) ∧
    ((∃ k ∈ allChecks, a = .test k) →
      lineFits session noOperation l st = true)

theorem lineLeads_of_action {c : Cursor} {a : Action} (ha : actionAt c = some a) (session : Bool) (l : Line) (st : LineState) :
    lineLeads session c a l st := by
  have h := of_scripts (Q := fun c a => ∀ b ∈ [true, false], ∀ l ∈ allLines, ∀ st ∈ allLineStates, lineLeads b c a l st)
    (by unfold lineLeads; decide) ha
  exact h session (by cases session <;> decide) l (mem_allLines l) st (mem_allLineStates st)

end Sys2Proof.Machine
end

section
/-! PROOFS. The invariant of an Active session, move by move: SESSION and the operations, the handles POWER_ON acquires, the lines
by the table of `lineFits`, and the bracket around each BusWrite (R93, R106, R107, R108). Settles O56. -/

namespace Sys2Proof.Machine

/-! ### SESSION and the operations -/

/-- Where the operation is none of the three that test SESSION, nothing is said. -/
theorem agrees_of_ops {s : State} (h1 : s.seq.op ≠ .powerOn) (h2 : s.seq.op ≠ .sendImage) (h3 : s.seq.op ≠ .powerOff) :
    operationAgreesWithSession s := ⟨fun h => absurd h h1, fun h => absurd h h2, fun h => absurd h h3⟩

theorem agrees_of_rest {s : State} (h : s.seq = noOperation) : operationAgreesWithSession s :=
  agrees_of_ops (by simp [h, noOperation]) (by simp [h, noOperation]) (by simp [h, noOperation])

/-- An operation leads past its test of SESSION only when the test holds (R95, R97, R101). -/
theorem landing_agrees {s t : State} {a : Action} (h : operationAgreesWithSession s) (ha : actionAt s.seq = some a)
    (hl : Landing s a t) : operationAgreesWithSession t := by
  obtain ⟨hon, hsend, hoff⟩ := h
  cases hl with
  | stays _ hseq _ hs =>
    unfold operationAgreesWithSession pastSessionTest
    rw [hseq, hs]
    exact ⟨hon, hsend, hoff⟩
  | next c hn hgood hseq _ hs =>
    unfold operationAgreesWithSession
    rw [hseq, (nextItem_spec hn).2, hs]
    by_cases hfirst : s.seq.step = s.seq.op.firstStep ∧ s.seq.item = 0
    · obtain ⟨h1, h2⟩ := session_item ha hfirst.1 hfirst.2
      refine ⟨fun ho _ => ?_, fun ho _ => ?_, fun ho _ => ?_⟩
      · simpa [State.passes] using hgood.1 _ (h1 ho)
      · exact hgood.1 _ (h2 (.inl ho))
      · exact hgood.1 _ (h2 (.inr ho))
    · exact ⟨fun ho _ => hon ho hfirst, fun ho _ => hsend ho hfirst, fun ho _ => hoff ho hfirst⟩
  | closes _ _ hseq => exact agrees_of_rest hseq
  | stops _ _ _ hseq => exact agrees_of_rest hseq
  | cleansUp _ hseq => exact agrees_of_ops (by simp [hseq]) (by simp [hseq]) (by simp [hseq])
  | skipsWait ho h1 hseq _ hs =>
    unfold operationAgreesWithSession
    rw [hseq, hs]
    refine ⟨fun h => ?_, fun h => ?_, fun h _ => hoff h ?_⟩
    · rcases ho with ho | ho <;> simp [ho] at h
    · rcases ho with ho | ho <;> simp [ho] at h
    · simp [pastSessionTest, show s.seq.op = .powerOff from h, h1, Op.firstStep]

/-! ### Handles -/

/-- The item of POWER_ON's step 1 after which a line is exported (R95). -/
def exportedBy : Line → Nat
  | .power => 1
  | .reset => 2
  | .cs => 3
  | .dc => 4
  | .busy => 5

/-- POWER_ON has exported a line when its cursor stands here. -/
def heldAt (c : Cursor) (l : Line) : Bool := Nat.ble 2 c.step || (c.step == 1 && Nat.ble (exportedBy l) c.item)

/-- POWER_ON has opened the bus when its cursor stands here. -/
def openAt (c : Cursor) : Bool := Nat.ble 2 c.step || (c.step == 1 && Nat.ble 11 c.item)

theorem holdsAll_iff (s : State) : holdsAll s ↔ (∀ l, s.exported.get l = true) ∧ s.busOpen = true := by
  unfold holdsAll
  cases s.exported
  simp [forall_line, Exported.get]

theorem acquired_iff (s : State) :
    acquired s ↔ (∀ l, heldAt s.seq l = true → s.exported.get l = true) ∧ (openAt s.seq = true → s.busOpen = true) := by
  unfold acquired heldAt openAt
  rw [holdsAll_iff, forall_line, forall_line]
  rcases Nat.lt_trichotomy s.seq.step 1 with h | h | h
  · have h2 : ¬ 2 ≤ s.seq.step := by omega
    have h1 : s.seq.step ≠ 1 := by omega
    simp [h1, h2]
  · simp [h, exportedBy, Exported.get, and_assoc]
  · have h2 : 2 ≤ s.seq.step := h
    have h1 : s.seq.step ≠ 1 := by omega
    simp [h1, h2, Exported.get]

/-- The item changes neither EXPORTED nor BUS_OPEN. -/
def Action.keepsHandles : Action → Bool
  | .exportLine _ => false
  | .unexportLine _ => false
  | .busOpen => false
  | .busClose => false
  | _ => true

theorem effect_of_keepsHandles {a : Action} (h : a.keepsHandles = true) (s : State) : a.effect s = s := by
  unfold Action.keepsHandles at h
  split at h
  · cases h
  · cases h
  · cases h
  · cases h
  · cases a <;> simp_all [Action.effect]

theorem itemMove_keepsHandles {s t : State} {a : Action} (hk : a.keepsHandles = true) (h : ItemMove s a t) :
    t.exported = s.exported ∧ t.busOpen = s.busOpen := by
  rcases itemMove_handles h with ⟨h1, h2, -⟩ | ⟨h1, h2, -⟩
  · rw [effect_of_keepsHandles hk] at h1 h2; exact ⟨h1, h2⟩
  · exact ⟨h1, h2⟩

/-- Only step 1 of POWER_ON and the releases of a shutdown change a handle. -/
theorem keepsHandles_of_action {c : Cursor} {a : Action} (ha : actionAt c = some a) :
    (c.op = .sendImage ∨ a.waits = true ∨ (c.op = .powerOn ∧ c.step ≠ 1) ∨
      ∃ k ∈ allChecks, a = .test k) →
        a.keepsHandles = true :=
  of_scripts (Q := fun c a => (c.op = .sendImage ∨ a.waits = true ∨ (c.op = .powerOn ∧ c.step ≠ 1) ∨
    ∃ k ∈ allChecks, a = .test k) →
      a.keepsHandles = true) (by decide) ha

/-- The one test of a shutdown is POWER_OFF's of SESSION (R101, R104). -/
theorem shutdown_test {c : Cursor} {k : Check} (ha : actionAt c = some (.test k)) :
    (c.op = .powerOff → k = .sessionActive) ∧ c.op ≠ .cleanup := by
  have h := of_scripts (Q := fun c a => ∀ k ∈ allChecks, a = .test k →
    (c.op = .powerOff → k = .sessionActive) ∧ c.op ≠ .cleanup) (by decide) ha
  exact h k (mem_allChecks k) rfl

/-- Each item of POWER_ON acquires what the next position holds beyond its own, and releases nothing (R95). -/
theorem powerOn_acquires {c d : Cursor} {a : Action} (ho : c.op = .powerOn) (ha : actionAt c = some a)
    (hn : nextItem c = some d) :
    (∀ l, heldAt d l = true → a = .exportLine l ∨ heldAt c l = true) ∧ (openAt d = true → a = .busOpen ∨ openAt c = true) ∧
      (∀ l, a ≠ .unexportLine l) ∧ a ≠ .busClose := by
  obtain ⟨h1, h2, h3⟩ := of_script (op := .powerOn) (Q := fun c a =>
    (∀ l ∈ allLines, (nextItem c).any (fun d => heldAt d l) = true → a = .exportLine l ∨ heldAt c l = true) ∧
      ((nextItem c).any openAt = true → a = .busOpen ∨ openAt c = true) ∧
      (∀ l ∈ allLines, a ≠ .unexportLine l) ∧ a ≠ .busClose) (by decide) ho ha
  rw [hn] at h1 h2
  exact ⟨fun l => h1 l (mem_allLines l), h2, fun l => h3.1 l (mem_allLines l), h3.2⟩

/-- POWER_ON's last item is past step 1. -/
theorem powerOn_last {c : Cursor} {a : Action} (ho : c.op = .powerOn) (ha : actionAt c = some a) (hn : nextItem c = none) :
    2 ≤ c.step :=
  of_script (op := .powerOn) (Q := fun c _ => nextItem c = none → 2 ≤ c.step) (by decide) ho ha hn

theorem effect_exported_get {a : Action} {l : Line} (s : State) (hrel : ∀ m, a ≠ .unexportLine m)
    (h : a = .exportLine l ∨ s.exported.get l = true) : (a.effect s).exported.get l = true := by
  cases a with
  | unexportLine m => exact absurd rfl (hrel m)
  | exportLine m =>
    show (s.exported.put m true).get l = true
    rw [Exported.get_put]
    rcases h with h | h
    · rw [if_pos (Action.exportLine.inj h)]
    · rw [h, ite_self]
  | _ => exact h.resolve_left (by simp)

theorem effect_busOpen {a : Action} (s : State) (hrel : a ≠ .busClose) (h : a = .busOpen ∨ s.busOpen = true) :
    (a.effect s).busOpen = true := by
  cases a with
  | busClose => exact absurd rfl hrel
  | busOpen => rfl
  | _ => exact h.resolve_left (by simp)

theorem unchecked_keepsHandles {a : Action} (h : a.unchecked = true) : a.keepsHandles = true := by
  cases a with
  | setBestEffort => rfl
  | delay => rfl
  | _ => cases h

/-- POWER_ON holds at its next item what that position says (R95). -/
theorem landing_acquired {s t : State} {a : Action} (h : s.seq.op = .powerOn → acquired s) (ha : actionAt s.seq = some a)
    (hi : ItemMove s a t) (hl : Landing s a t) (ho : t.seq.op = .powerOn) : acquired t := by
  cases hl with
  | stays hw hseq =>
    obtain ⟨h1, h2⟩ := itemMove_keepsHandles (keepsHandles_of_action ha (.inr (.inl hw))) hi
    have hs := (acquired_iff s).1 (h (hseq ▸ ho))
    rw [acquired_iff, hseq, h1, h2]
    exact hs
  | next c hn hgood hseq =>
    rw [hseq, (nextItem_spec hn).2] at ho
    obtain ⟨hs1, hs2⟩ := (acquired_iff s).1 (h ho)
    obtain ⟨hl1, hl2, hrel, hclose⟩ := powerOn_acquires ho ha hn
    rw [acquired_iff, hseq]
    rcases itemMove_handles hi with ⟨h1, h2, -⟩ | ⟨h1, h2, e, he, hf⟩
    · rw [h1, h2]
      exact ⟨fun l hd => effect_exported_get s hrel ((hl1 l hd).imp_right (hs1 l)),
        fun hd => effect_busOpen s hclose ((hl2 hd).imp_right hs2)⟩
    · have hk := unchecked_keepsHandles (hgood.2 (.inl ho) e he hf)
      rw [h1, h2]
      refine ⟨fun l hd => hs1 l ((hl1 l hd).resolve_left ?_), fun hd => hs2 ((hl2 hd).resolve_left ?_)⟩
      · rintro rfl; cases hk
      · rintro rfl; cases hk
  | closes _ _ hseq => rw [hseq] at ho; cases ho
  | stops _ _ _ hseq => rw [hseq] at ho; cases ho
  | cleansUp _ hseq => rw [hseq] at ho; cases ho
  | skipsWait hoff _ hseq => rw [hseq] at ho; rcases hoff with h | h <;> rw [h] at ho <;> cases ho

theorem holdsAll_congr {s t : State} (he : t.exported = s.exported) (hb : t.busOpen = s.busOpen) (h : holdsAll s) :
    holdsAll t := by
  unfold holdsAll
  rw [he, hb]
  exact h

/-- What a session holds, after a move at an item. -/
theorem landing_holds {s t : State} {a : Action} (h : sessionInvariant s) (ha : actionAt s.seq = some a)
    (hi : ItemMove s a t) (hl : Landing s a t) (hs : t.session = true) (hoff : t.seq.op ≠ .powerOff)
    (hcl : t.seq.op ≠ .cleanup) : holdsAll t := by
  obtain ⟨-, ⟨hon, -, -⟩, hholds, hacq⟩ := h
  have kept (hk : a.keepsHandles = true) (h : holdsAll s) : holdsAll t := by
    obtain ⟨h1, h2⟩ := itemMove_keepsHandles hk hi
    exact holdsAll_congr h1 h2 h
  cases hl with
  | stays hw hseq _ hs' =>
    exact kept (keepsHandles_of_action ha (.inr (.inl hw))) (hholds (hs' ▸ hs) (hseq ▸ hoff) (hseq ▸ hcl))
  | next c hn hgood hseq _ hs' =>
    rw [hseq, (nextItem_spec hn).2] at hoff hcl
    have hs := hs' ▸ hs
    refine kept (keepsHandles_of_action ha ?_) (hholds hs hoff hcl)
    by_cases ho : s.seq.op = .powerOn
    · refine .inr (.inr (.inl ⟨ho, fun h1 => ?_⟩))
      have := hon ho (by simp [pastSessionTest, ho, h1, Op.firstStep])
      rw [hs] at this
      cases this
    · obtain ⟨hnone, henc⟩ := op_ne_of_action ha
      refine .inl ?_
      cases hop : s.seq.op <;> simp_all
  | closes hn _ _ _ hs' =>
    rw [hs', closing_session_eq] at hs
    cases hop : s.seq.op with
    | powerOn =>
      have h2 := powerOn_last hop ha hn
      exact kept (keepsHandles_of_action ha (.inr (.inr (.inl ⟨hop, by omega⟩)))) ((hacq hop).2 h2)
    | sendImage =>
      rw [hop] at hs
      exact kept (keepsHandles_of_action ha (.inl hop)) (hholds hs (by simp [hop]) (by simp [hop]))
    | powerOff => rw [hop] at hs; cases hs
    | cleanup => rw [hop] at hs; cases hs
    | none => exact absurd hop (op_ne_of_action ha).1
    | encode => exact absurd hop (op_ne_of_action ha).2
  | stops k hk hfails _ _ hs' =>
    subst hk
    obtain ⟨h1, h2⟩ := shutdown_test ha
    have hs : s.session = true := hs' ▸ hs
    refine kept rfl (hholds hs (fun ho => ?_) h2)
    rw [h1 ho] at hfails
    exact absurd hs (Bool.eq_false_iff.1 hfails)
  | cleansUp _ hseq => exact absurd (by rw [hseq]) hcl
  | skipsWait ho _ hseq =>
    rw [hseq] at hoff hcl
    exact absurd ho (not_or.2 ⟨hoff, hcl⟩)

/-! ### The session -/

theorem accepted_sessionInvariant {op : Op} {s : State} (ho : op.isHost) (hb : s.busy = false) (h : sessionInvariant s) :
    sessionInvariant (s.acceptCommand op op.firstStep) := by
  obtain ⟨hcur, -, hholds, -⟩ := h
  have hrest : s.seq.op = .none := congrArg Cursor.op (seq_of_idle hcur hb)
  refine ⟨accepted_cursorInvariant ho s, ⟨?_, ?_, ?_⟩, fun hs _ _ => hholds hs (by simp [hrest]) (by simp [hrest]), ?_⟩
  · exact fun _ hpast => absurd ⟨rfl, rfl⟩ hpast
  · exact fun _ hpast => absurd ⟨rfl, rfl⟩ hpast
  · exact fun _ hpast => absurd ⟨rfl, rfl⟩ hpast
  · intro hop
    obtain rfl : op = .powerOn := hop
    exact ⟨fun h => absurd h (by simp [Op.firstStep]), fun h => absurd h (by simp [Op.firstStep])⟩

/-- Between operations the invariant says what a session holds. -/
theorem sessionInvariant_of_rest {s : State} (h : s.atRest) (hh : s.session = true → holdsAll s) : sessionInvariant s :=
  ⟨(cursorInvariant_iff s).2 (.inl h), agrees_of_rest h.2, fun hs _ _ => hh hs,
    fun ho => absurd ho (by simp [h.2, noOperation])⟩

theorem encode_sessionInvariant {s : State} (henc : s.encoding) (h : sessionInvariant s) :
    sessionInvariant s.encodeMove := by
  have hop := henc.2.1
  have hs := (encodeMove_packing (s := s) (.inl hop)).2.1
  have he : s.encodeMove.exported = s.exported := congrArg SessionSide.exported hs
  have hb : s.encodeMove.busOpen = s.busOpen := congrArg SessionSide.busOpen hs
  have hses : s.encodeMove.session = s.session := congrArg SessionSide.session hs
  have hh : s.encodeMove.session = true → holdsAll s.encodeMove := fun hs =>
    holdsAll_congr he hb (h.2.2.1 (hses ▸ hs) (by simp [hop]) (by simp [hop]))
  rcases encodeMove_encoding henc with henc' | hrest
  · exact ⟨(cursorInvariant_iff _).2 (.inr (.inl henc')), agrees_of_ops (by simp [henc'.2.1]) (by simp [henc'.2.1])
      (by simp [henc'.2.1]), fun hs _ _ => hh hs, fun ho => absurd ho (by simp [henc'.2.1])⟩
  · exact sessionInvariant_of_rest hrest hh

theorem move_sessionInvariant {s : State} (hb : s.busy = true) (h : sessionInvariant s) : sessionInvariant s.move := by
  have hcur := move_cursorInvariant hb h.1
  have hm := move_moved s
  generalize s.move = t at hm hcur
  cases hm with
  | packed ho =>
    rcases (cursorInvariant_iff s).1 h.1 with hr | henc | hi
    · rw [hr.2] at ho; cases ho
    · exact encode_sessionInvariant henc h
    · obtain ⟨a, ha⟩ := Option.isSome_iff_exists.1 hi.2
      exact absurd ho (op_ne_of_action ha).2
  | skipped a ha hc _ =>
    rcases advance_cases s with ⟨c, hn, h'⟩ | ⟨-, h'⟩
    · rw [h'] at hcur ⊢
      have hop : c.op = .cleanup := (nextItem_spec hn).2.trans hc
      exact ⟨hcur, agrees_of_ops (by simp [hop]) (by simp [hop]) (by simp [hop]), fun _ _ h => absurd hop h,
        fun h => absurd (hop.symm.trans h) (by decide)⟩
    · rw [h']
      refine sessionInvariant_of_rest ⟨rfl, rfl⟩ fun hs => ?_
      rw [State.endOperation_session, closing_session_eq, hc] at hs
      cases hs
  | ran a _ ha _ hi =>
    have hl := itemMove_landing hi ha
    exact ⟨hcur, landing_agrees h.2.1 ha hl, landing_holds h ha hi hl, landing_acquired h.2.2.2 ha hi hl⟩
  | ended ho hn =>
    obtain ⟨a, ha⟩ := action_of_cursorInvariant h.1 hb ho
    rw [hn] at ha
    cases ha

/-! ### The lines -/

/-- In POWER_ON and SEND_IMAGE an item that does not look at its outcome is on no line. -/
theorem unchecked_onLine {c : Cursor} {a : Action} (ha : actionAt c = some a) (ho : c.op = .powerOn ∨ c.op = .sendImage)
    (hu : a.unchecked = true) (l : Line) (st : LineState) : a.onLine l st = st :=
  of_scripts (Q := fun c a => c.op = .powerOn ∨ c.op = .sendImage → a.unchecked = true →
    ∀ l ∈ allLines, ∀ st ∈ allLineStates, a.onLine l st = st) (by decide) ha ho hu l (mem_allLines l) st (mem_allLineStates st)

/-- The lines fit after a move at an item. -/
theorem landing_lines {s t : State} {a : Action} (hp : paramsOk s.params = true) (hpar : t.params = s.params)
    (h : linesFollowCursor s) (ha : actionAt s.seq = some a) (hi : ItemMove s a t) (hl : Landing s a t) :
    linesFollowCursor t := by
  rw [linesFollowCursor_iff] at h ⊢
  intro l
  obtain ⟨hnext, hlast, htest⟩ := lineLeads_of_action ha s.session l (s.lineState l) (h l)
  have hline := itemMove_lineState hp hpar hi l
  have leads {Q : LineState → Prop} (hgood : s.wentWell a) (h1 : Q (a.onLine l (s.lineState l)))
      (h2 : s.seq.op.goesOn = true → Q (s.lineState l)) : Q (t.lineState l) := by
    rcases hline with hline | ⟨hline, e, he, hf⟩
    · rw [hline]; exact h1
    rw [hline]
    by_cases hoff : s.seq.op.goesOn = true
    · exact h2 hoff
    · have hon : s.seq.op = .powerOn ∨ s.seq.op = .sendImage := by
        obtain ⟨hnone, henc⟩ := op_ne_of_action ha
        cases hop : s.seq.op <;> simp_all [Op.goesOn]
      rw [← unchecked_onLine ha hon (hgood.2 hon e he hf) l (s.lineState l)]
      exact h1
  cases hl with
  | stays hw hseq _ hs =>
    have hsame : t.lineState l = s.lineState l := by
      rcases hline with hline | ⟨hline, -⟩
      · cases a with
        | waitBusy => exact hline
        | _ => cases hw
      · exact hline
    rw [hseq, hs, hsame]
    exact h l
  | next c hn hgood hseq _ hs =>
    obtain ⟨h1, h2⟩ := hnext c hn
    rw [hseq, hs]
    exact leads (Q := fun st => lineFits s.session c l st = true) hgood h1 h2
  | closes hn hgood hseq _ hs =>
    obtain ⟨h1, h2⟩ := hlast hn
    rw [hseq, hs, closing_session_eq]
    exact leads (Q := fun st => lineFits _ noOperation l st = true) hgood h1 h2
  | stops k hk _ hseq _ hs =>
    subst hk
    have hsame : t.lineState l = s.lineState l := hline.elim id And.left
    rw [hseq, hs, hsame]
    exact htest ⟨k, mem_allChecks k, rfl⟩
  | cleansUp _ hseq => rw [hseq]; rfl
  | skipsWait ho _ hseq => rw [hseq]; rcases ho with ho | ho <;> rw [ho] <;> simp [lineFits]

/-- The lines read the trace, the parameters, SESSION and the cursor. -/
theorem linesFollowCursor_of {s t : State} (h : linesFollowCursor s) (hline : ∀ l, t.lineState l = s.lineState l)
    (hfits : ∀ l st, lineFits s.session s.seq l st = true → lineFits t.session t.seq l st = true) :
    linesFollowCursor t := by
  rw [linesFollowCursor_iff] at h ⊢
  intro l
  rw [hline l]
  exact hfits l _ (h l)

theorem lineState_congr {s t : State} (hp : t.params = s.params) (ht : t.trace = s.trace) (l : Line) :
    t.lineState l = s.lineState l := by
  unfold State.lineState State.lineNumber
  rw [hp, ht]

/-- A PixRead leaves every line. -/
theorem encodeMove_lineState (s : State) (l : Line) : s.encodeMove.lineState l = s.lineState l := by
  have hp : s.encodeMove.params = s.params := congrArg HostSide.params (encodeMove_hostSide s)
  rcases encodeMove_trace s with ht | ⟨x, y, ht⟩
  · exact lineState_congr hp ht l
  · unfold State.lineState State.lineNumber lineView
    rw [hp, ht, List.foldl_append]
    exact lineAfter_noLine rfl (LineNumbers.of s.params.lines l) _

theorem move_lines {s : State} (hp : paramsOk s.params = true) (hb : s.busy = true) (hcur : cursorInvariant s)
    (h : linesFollowCursor s) : linesFollowCursor s.move := by
  have hpar : s.move.params = s.params := congrArg HostSide.params (move_hostSide s)
  have hm := move_moved s
  generalize s.move = t at hm hpar
  cases hm with
  | packed ho =>
    have hop := encodeMove_packing (s := s) (.inl ho)
    have hs : s.encodeMove.session = s.session := congrArg SessionSide.session hop.2.1
    refine linesFollowCursor_of h (encodeMove_lineState s) fun l st hf => ?_
    rw [hs]
    rcases hop.1 with h1 | h1 <;> simpa [lineFits, ho, h1] using hf
  | skipped a ha hc _ =>
    refine linesFollowCursor_of h (fun l => lineState_congr (by simp) (by simp) l) fun l st _ => ?_
    rcases advance_cases s with ⟨c, hn, h'⟩ | ⟨-, h'⟩
    · have hop : c.op = .cleanup := (nextItem_spec hn).2.trans hc
      simp [h', lineFits, hop]
    · have hs : s.closing.session = false := by rw [closing_session_eq, hc]; rfl
      simp [h', lineFits, hs, noOperation]
  | ran a _ ha _ hi => exact landing_lines hp hpar h ha hi (itemMove_landing hi ha)
  | ended ho hn =>
    obtain ⟨a, ha⟩ := action_of_cursorInvariant hcur hb ho
    rw [hn] at ha
    cases ha

/-! ### The bracket -/

/-- The item writes the bus. -/
def Action.isWire : Action → Bool
  | .wire _ => true
  | _ => false

/-- A wire command or a payload, but CLEANUP's, stands after the operation's test of SESSION, where the table gives LINE_CS and
LINE_DC their levels (R107). -/
theorem wire_bracket {c : Cursor} {a : Action} (ha : actionAt c = some a) (hw : a.isWire = true) (hc : c.op ≠ .cleanup) :
    ¬ (c.step = c.op.firstStep ∧ c.item = 0) ∧ ∀ st,
      (lineFits (decide (c.op ≠ .powerOn)) c .cs st = true → st = .output false) ∧
        (lineFits (decide (c.op ≠ .powerOn)) c .dc st = true → st = .output (payloadPos c)) := by
  obtain ⟨h1, h2⟩ := of_scripts (Q := fun c a => a.isWire = true → c.op ≠ .cleanup →
    ¬ (c.step = c.op.firstStep ∧ c.item = 0) ∧ ∀ st ∈ allLineStates,
      (lineFits (decide (c.op ≠ .powerOn)) c .cs st = true → st = .output false) ∧
        (lineFits (decide (c.op ≠ .powerOn)) c .dc st = true → st = .output (payloadPos c))) (by decide) ha hw hc
  exact ⟨h1, fun st => h2 st (mem_allLineStates st)⟩

/-- Past its test an operation knows SESSION (R106). -/
theorem session_of_pastTest {s : State} {a : Action} (h : operationAgreesWithSession s) (ha : actionAt s.seq = some a)
    (hc : s.seq.op ≠ .cleanup) (hpast : pastSessionTest s) : s.session = decide (s.seq.op ≠ .powerOn) := by
  obtain ⟨hon, hsend, hoff⟩ := h
  cases hop : s.seq.op with
  | powerOn => simpa using hon hop hpast
  | sendImage => simpa using hsend hop hpast
  | powerOff => simpa using hoff hop hpast
  | cleanup => exact absurd hop hc
  | none => exact absurd hop (op_ne_of_action ha).1
  | encode => exact absurd hop (op_ne_of_action ha).2

/-- At a wire command or a payload, but CLEANUP's, LINE_CS is 0 and LINE_DC says which of the two it is (R93, R107). -/
theorem lines_at_write {s : State} {bytes : List Byte} (hs : sessionInvariant s) (hl : linesFollowCursor s)
    (he : s.issues (.busWrite bytes)) (hc : s.seq.op ≠ .cleanup) :
    s.lineState .cs = .output false ∧ s.lineState .dc = .output (payloadPos s.seq) := by
  obtain ⟨-, x, y, h⟩ | ⟨a, ha, he, -⟩ := he
  · cases h
  have hw : a.isWire = true := by
    cases a with
    | wire w => rfl
    | waitBusy b => rcases itemEvent_of_wait he with h | h <;> cases h
    | _ => cases he
  obtain ⟨hpast, hfits⟩ := wire_bracket ha hw hc
  rw [linesFollowCursor_iff] at hl
  rw [← session_of_pastTest hs.2.1 ha hc hpast] at hfits
  exact ⟨(hfits _).1 (hl .cs), (hfits _).2 (hl .dc)⟩

/-- One more entry: the trace is bracketed when it was and the entry's write stands in its bracket. -/
theorem writesBracketed_concat {n : LineNumbers} {t : List Entry} {x : Entry} (h : writesBracketed n t)
    (hx : (∃ bytes, x.event = .busWrite bytes) → x.pos.op ≠ .cleanup →
      lineView n.cs t = .output false ∧ lineView n.dc t = .output (payloadPos x.pos)) : writesBracketed n (t ++ [x]) := by
  intro pre e post hd
  rcases List.eq_nil_or_concat post with rfl | ⟨post', y, rfl⟩
  · obtain ⟨rfl, he⟩ := List.append_inj' hd rfl
    obtain rfl := List.head_eq_of_cons_eq he
    exact hx
  · rw [List.concat_eq_append, ← List.cons_append, ← List.append_assoc] at hd
    exact h pre e post' (List.append_inj' hd rfl).1

theorem move_linesInvariant {s : State} (hp : paramsOk s.params = true) (hb : s.busy = true) (h : linesInvariant s) :
    linesInvariant s.move := by
  obtain ⟨hses, hlines, hbr⟩ := h
  have hpar : s.move.params = s.params := congrArg HostSide.params (move_hostSide s)
  refine ⟨move_sessionInvariant hb hses, move_lines hp hb hses.1 hlines, ?_⟩
  rw [hpar]
  rcases moved_trace (move_moved s) with ht | ⟨e, he, ht⟩
  · rw [ht]; exact hbr
  · rw [ht]
    refine writesBracketed_concat hbr fun ⟨bytes, hw⟩ hc => ?_
    obtain rfl : e = .busWrite bytes := hw
    exact lines_at_write hses hlines he hc

/-! ### The obligation -/

/-- The lines between operations fit at the first item of every operation. -/
theorem lineFits_first {op : Op} (ho : op.isHost) {session : Bool} {l : Line} {st : LineState}
    (h : lineFits session noOperation l st = true) :
    lineFits session { op := op, step := op.firstStep, item := 0 } l st = true := by
  have hrest : (!session || (st == restLine l)) = true := h
  have hsend : sendImageLine { op := .sendImage, step := 1, item := 0 } l = restLine l := by cases l <;> rfl
  obtain rfl | rfl | rfl | rfl := ho
  · exact hrest
  · exact hrest
  · simpa [lineFits, Op.firstStep, hsend] using hrest
  · simpa [lineFits, Op.firstStep] using hrest

theorem accepted_linesInvariant {op : Op} {s : State} (ho : op.isHost) (hb : s.busy = false) (h : linesInvariant s) :
    linesInvariant (s.acceptCommand op op.firstStep) := by
  obtain ⟨hses, hlines, hbr⟩ := h
  refine ⟨accepted_sessionInvariant ho hb hses, linesFollowCursor_of hlines (fun _ => rfl) fun l st hf => ?_, hbr⟩
  have hrest := seq_of_idle hses.1 hb
  rw [hrest] at hf
  exact lineFits_first ho hf

theorem ended_linesInvariant {s : State} (e : ErrorReg) (hb : s.busy = false) (h : linesInvariant s) :
    linesInvariant { s.completed with error := e } := by
  obtain ⟨hses, hlines, hbr⟩ := h
  have hrest := seq_of_idle hses.1 hb
  refine ⟨sessionInvariant_of_rest ⟨rfl, rfl⟩ fun hs => ?_, linesFollowCursor_of hlines (fun _ => rfl) fun l st hf => ?_,
    hbr⟩
  · exact hses.2.2.1 hs (by simp [hrest, noOperation]) (by simp [hrest, noOperation])
  · rw [hrest] at hf; exact hf

/-- At rest, with no session and no event, the invariant holds. -/
theorem linesInvariant_of_fresh {s : State} (h : s.atRest) (hs : s.session = false) (ht : s.trace = []) :
    linesInvariant s := by
  refine ⟨sessionInvariant_of_rest h (fun hs' => ?_), ?_, fun pre e post hd => ?_⟩
  · rw [hs] at hs'; cases hs'
  · rw [linesFollowCursor_iff, hs, h.2]; exact fun _ => rfl
  · rw [ht] at hd; exact absurd hd.symm (by simp)

/-- Settles O56: the items lead from the lines that fit to the lines that fit (`lineLeads_of_action`), POWER_ON acquires what its
position says, and each write stands where the table has its bracket. -/
theorem stepKeepsSessionLines : Obligations.StepKeepsSessionLines := by
  intro s t h hs
  refine KeptByStep.step ?_ h hs
  refine ⟨fun _ _ _ _ _ _ _ h => h, fun u a v _ h => ?_, fun _ _ _ => linesInvariant_of_fresh ⟨rfl, rfl⟩ rfl rfl,
    fun _ _ ho hb h => accepted_linesInvariant ho hb h, fun _ e hb h => ended_linesInvariant e hb h,
    fun _ hp hb h => move_linesInvariant hp hb h⟩
  obtain ⟨_, _, _, _, _, _, _, hu⟩ := storeRegister_cases a v u
  rw [hu]; exact h

end Sys2Proof.Machine
end

section
/-! PROOFS. The host's reads, the words of CMD and the unit reset (20_memory.md R41 to R49, R67; 70_reset_and_hazards.md R136), and
what a step decodes. Settles O4, O5, O8, O9, O12, O13 and O16. -/

namespace Sys2Proof.Machine

/-! ### Reads -/

/-- A byte read alone stands in the low bits of the reply (R43). -/
theorem zeros_append_byte (b : Byte) : (0#24 ++ b : Word) = b.zeroExtend 32 := by
  have happ : (0#24 ++ b : BitVec (24 + 8)).toNat = b.toNat := by rw [BitVec.toNat_append]; simp
  have hext : (b.zeroExtend 32).toNat = b.toNat := by simp; omega
  exact BitVec.eq_of_toNat_eq (happ.trans hext.symm)

theorem colorWord_eq (c : Bool) : colorWord c = if c then 1 else 0 := by cases c <;> rfl

/-- A read that lands answers the register or the window bytes, and changes nothing else (R49). -/
theorem step_of_read {s : State} {k a n : Nat} {rest : List Pending} (hp : paramsOk s.params = true)
    (hq : s.inputs = { after := k, input := .read a n } :: rest) (hk : k = 0 ∨ s.busy = false)
    (ha : accessAdmitted a n = true) :
    step s = .next { s with
      inputs := rest, replies := s.replies ++ [{ a := a, n := n, value := s.readValue a n }] } := by
  rw [step_eq_takeInput hp hq hk rfl, State.takeInput, if_pos ha]
  rfl

theorem readValue_register {s : State} {a n : Nat} (h : a < 0x10000) : s.readValue a n = s.readRegister a := if_pos h

/-- The reserved block reads 0 (R41). -/
theorem readRegister_reserved {s : State} {a : Nat} (h : 0x44 ≤ a) : s.readRegister a = 0 := by
  unfold State.readRegister
  split
  all_goals first | rfl | omega

/-- Settles O8: a read is a reply, and a register's value is the case of `readRegister` at its offset. -/
theorem hostReadsHaveNoSideEffects : Obligations.HostReadsHaveNoSideEffects := by
  intro s k a n rest hp hq hk ha
  refine ⟨_, step_of_read hp hq hk ((accessAdmitted_iff a n).2 ha), ?_⟩
  have reg {r : Nat} (hr : r < 0x10000) (h : a = r) : s.readValue a n = s.readRegister r := by
    rw [h, readValue_register hr]
  refine ⟨reg (by decide), reg (by decide), reg (by decide), reg (by decide), reg (by decide), reg (by decide),
    reg (by decide), fun h => ?_, reg (by decide), reg (by decide), fun h => ?_, reg (by decide), reg (by decide),
    fun h => ?_, reg (by decide), fun h => ?_, fun h => ?_, fun hlo hhi => ?_⟩
  · exact (reg (by decide) h).trans (colorWord_eq _)
  · exact (reg (by decide) h).trans (colorWord_eq _)
  · exact (reg (by decide) h).trans (zeros_append_byte _)
  · rw [BitVec.truncate_eq_setWidth, BitVec.setWidth_eq_extractLsb' (by decide)]
    exact reg (by decide) h
  · refine (reg (by decide) h).trans (BitVec.eq_of_toNat_eq ?_)
    show (s.lastRefresh.extractLsb' 32 32).toNat = _
    simp
  · rw [readValue_register (by omega), readRegister_reserved hlo]

/-! ### Windows -/

/-- The first offset of a layer's window (R41). -/
def Layer.base : Layer → Nat
  | .primary => 0x10000
  | .secondary => 0x20000

/-- An offset of a window below its tail is a byte of the layer; one in the tail is none (R41). -/
theorem windowByteOf_base (l : Layer) (i : Nat) (h : i < 0x10000) :
    windowByteOf (l.base + i) = if i < 15000 then some (l, i) else none := by
  unfold windowByteOf
  cases l with
  | primary =>
    have hlow : Layer.primary.base + i < secondaryBase := show 0x10000 + i < 0x20000 by omega
    rw [if_pos hlow]
    show (if 0x10000 + i - 0x10000 < 15000 then some (Layer.primary, 0x10000 + i - 0x10000) else none) = _
    rw [Nat.add_sub_cancel_left]
  | secondary =>
    have hhigh : ¬ Layer.secondary.base + i < secondaryBase := show ¬ 0x20000 + i < 0x20000 by omega
    rw [if_neg hhigh]
    show (if 0x20000 + i - 0x20000 < 15000 then some (Layer.secondary, 0x20000 + i - 0x20000) else none) = _
    rw [Nat.add_sub_cancel_left]

/-- A byte of a window is the layer's byte while BUSY = 0 (R44). -/
theorem readWindowByte_layer {s : State} {l : Layer} {i : Nat} (hb : s.busy = false) (h : i < 15000) :
    s.readWindowByte (l.base + i) = s.layerByte l i := by
  simp [State.readWindowByte, windowByteOf_base l i (by omega), h, hb]

/-- A byte of a reserved tail is 0, busy or not (R41). -/
theorem readWindowByte_tail {s : State} {l : Layer} {i : Nat} (h1 : 15000 ≤ i) (h2 : i < 0x10000) :
    s.readWindowByte (l.base + i) = 0 := by
  simp [State.readWindowByte, windowByteOf_base l i h2, Nat.not_lt.2 h1]

theorem readValue_window_byte {s : State} {l : Layer} (i : Nat) :
    s.readValue (l.base + i) 1 = 0#24 ++ s.readWindowByte (l.base + i) := by
  have : ¬ l.base + i < primaryBase := by cases l <;> simp only [Layer.base, primaryBase] <;> omega
  rw [State.readValue, if_neg this, if_pos rfl]

theorem readValue_window_word {s : State} {l : Layer} (i : Nat) :
    s.readValue (l.base + i) 4 = s.readWindowByte (l.base + (i + 3)) ++ s.readWindowByte (l.base + (i + 2)) ++
      s.readWindowByte (l.base + (i + 1)) ++ s.readWindowByte (l.base + i) := by
  have : ¬ l.base + i < primaryBase := by cases l <;> simp only [Layer.base, primaryBase] <;> omega
  rw [State.readValue, if_neg this, if_neg (by decide)]
  rfl

theorem window_admitted {l : Layer} {i n : Nat} (h : i < 0x10000) (hn : n = 1 ∨ (n = 4 ∧ i % 4 = 0)) :
    accessAdmitted (l.base + i) n = true := by
  rw [accessAdmitted_iff]
  cases l <;> simp only [Layer.base] <;> omega

/-- The four bytes of a word put together from them (R43). -/
theorem extract_of_bytes (b3 b2 b1 b0 : Byte) :
    (b3 ++ b2 ++ b1 ++ b0 : Word).extractLsb' 0 8 = b0 ∧ (b3 ++ b2 ++ b1 ++ b0 : Word).extractLsb' 8 8 = b1 ∧
      (b3 ++ b2 ++ b1 ++ b0 : Word).extractLsb' 16 8 = b2 ∧ (b3 ++ b2 ++ b1 ++ b0 : Word).extractLsb' 24 8 = b3 := by
  have h := bytesOfWord_wordOfBytes b0 b1 b2 b3
  simp only [bytesOfWord, wordOfBytes, List.cons.injEq, and_true] at h
  exact h

/-- Settles O9: an offset of a window is a byte of its layer or of its tail (`windowByteOf_base`). -/
theorem windowReadsReturnLayerBytes : Obligations.WindowReadsReturnLayerBytes := by
  intro s k i l rest base hp hk hbase
  obtain rfl : base = l.base := by rw [hbase]; cases l <;> rfl
  refine ⟨fun hb hi hq => ?_, fun hb hi h4 hq => ?_, fun hlo hhi n hn hq => ?_⟩
  · rw [step_of_read hp hq hk (window_admitted (by omega) (.inl rfl)), readValue_window_byte,
      readWindowByte_layer hb hi, zeros_append_byte]
  · refine ⟨_, step_of_read hp hq hk (window_admitted (by omega) (.inr ⟨rfl, h4⟩)), ?_⟩
    rw [readValue_window_word, readWindowByte_layer hb hi, readWindowByte_layer hb (by omega),
      readWindowByte_layer hb (by omega), readWindowByte_layer hb (by omega)]
    exact extract_of_bytes ..
  · have hv : s.readValue (l.base + i) n = 0 := by
      obtain rfl | ⟨rfl, h4⟩ := hn
      · rw [readValue_window_byte, readWindowByte_tail hlo hhi]; rfl
      · rw [readValue_window_word, readWindowByte_tail hlo hhi, readWindowByte_tail (by omega) (by omega),
          readWindowByte_tail (by omega) (by omega), readWindowByte_tail (by omega) (by omega)]
        rfl
    rw [step_of_read hp hq hk (window_admitted hhi hn), hv]

/-! ### Words of CMD -/

/-- A word is known by its four bytes. -/
theorem bytesOfWord_inj {v w : Word} (h : bytesOfWord v = bytesOfWord w) : v = w := by
  have hv := v.isLt
  have hw := w.isLt
  simp only [bytesOfWord, List.cons.injEq, and_true, BitVec.toNat_eq, BitVec.extractLsb'_toNat,
    Nat.shiftRight_eq_div_pow] at h
  rw [BitVec.toNat_eq]
  omega

/-- Exactly the four words of R66 decode on the host's channel. -/
theorem decode_host_word {v : Word} {i : Instr} (h : decode .hostCommand (bytesOfWord v) = .ok i) :
    v = 0x01 ∨ v = 0x10 ∨ v = 0x11 ∨ v = 0x12 := by
  have he := (decodedBytesAreTheEncoding _ _ _ h).2.2
  rcases decodeHost_cases h with rfl | rfl | rfl | rfl
  · exact .inl (bytesOfWord_inj he).symm
  · exact .inr (.inl (bytesOfWord_inj he).symm)
  · exact .inr (.inr (.inl (bytesOfWord_inj he).symm))
  · exact .inr (.inr (.inr (bytesOfWord_inj he).symm))

/-- Settles O12: a word that does not decode is rejected by `illegalCommand`, an acceptance that ends at once. -/
theorem illegalCommandFailsAtOnce : Obligations.IllegalCommandFailsAtOnce := by
  intro s k v rest hp hb hq h1 h2 h3 h4
  refine ⟨?_, by decide⟩
  have hf : fetchInput (.write 0 4 v) = .bytes .hostCommand (bytesOfWord v) := rfl
  cases hd : decode .hostCommand (bytesOfWord v) with
  | ok i => rcases decode_host_word hd with h | h | h | h <;> contradiction
  | error e =>
    have hstep : step s = .next (s.setInputs rest).illegalCommand := by
      simp [step, hp, State.fetch, State.fetched, inputDue_of_head hq (.inr hb), hq, hf, hd, State.notDecoded]
    have hidle : ¬ (s.setInputs rest).busy = true := by simp [State.setInputs, hb]
    rw [hstep, State.illegalCommand, if_neg hidle]
    rfl

/-- Settles O13: a host command while BUSY = 1 is a dropped write. -/
theorem commandsWhileBusyAreDropped : Obligations.CommandsWhileBusyAreDropped := by
  intro s i hi hb
  obtain ⟨op, -, hx⟩ := exec_host hi
  rw [hx, State.hostCommand, if_pos hb]
  rfl

/-! ### The unit reset -/

theorem quiescent_iff (s : State) :
    s.quiescent = true ↔ s.busy = false ∧ s.session = false ∧ s.exported = noneExported ∧ s.busOpen = false := by
  unfold State.quiescent noneExported
  cases s.exported
  simp only [Bool.and_eq_true, Bool.not_eq_true', Exported.mk.injEq]
  tauto

/-- Settles O16: the reset asks for a quiescent state, and gives the values of R135. -/
theorem unitResetOnlyFromQuiescent : Obligations.UnitResetOnlyFromQuiescent := by
  intro s k rest hp hq hk
  rw [← quiescent_iff, step_eq_takeInput hp hq hk rfl]
  refine ⟨fun h => ⟨(s.setInputs rest).unitReset, if_pos h, ?_⟩, fun h => if_neg h⟩
  have hstatus : State.reset.statusWord = 0 := by decide
  have herror : noError.word = 0 := by decide
  exact ⟨hstatus, herror, rfl, rfl, rfl, rfl, rfl, rfl, rfl, rfl, rfl, rfl, rfl, rfl, rfl, rfl,
    fun _ => ⟨rfl, rfl⟩, rfl, rfl, rfl, rfl, rfl⟩

/-! ### What a step decodes -/

/-- Settles O4: the step fetches what has landed, or the bytes of the item at the cursor. -/
theorem stepRunsTheDecodedInstruction : Obligations.StepRunsTheDecodedInstruction := by
  refine ⟨fun s v k rest i hp hq hk hd => ?_, fun s w i hp hdue hb hw hd => ?_⟩
  · have hf : fetchInput (.write 0 4 v) = .bytes .hostCommand (bytesOfWord v) := rfl
    simp [step, hp, State.fetch, State.fetched, inputDue_of_head hq hk, hq, hf, hd, State.setInputs]
  · simp [step, hp, State.fetch, State.fetched, hdue, hb, hw, hd]

/-- Settles O5: `paramsOk` asks for each constraint of R9, and the step asks for `paramsOk`. -/
theorem badParametersAreRefused : Obligations.BadParametersAreRefused := by
  intro s h
  have hbad : ¬ paramsOk s.params = true := by
    intro hp
    obtain ⟨hnd, hres, h25⟩ := lines_of_paramsOk hp
    simp only [paramsOk, Bool.and_eq_true, decide_eq_true_eq] at hp
    obtain ⟨⟨⟨⟨⟨⟨⟨hlo, hhi⟩, hbits⟩, hmode⟩, -⟩, -⟩, -⟩, -⟩ := hp
    simp only [LineNumbers.five, List.mem_cons, List.not_mem_nil, or_false, not_or] at hres
    obtain ⟨hr1, hr2, hr3, hr4, hr5⟩ := hres
    rcases h with h | h | h | h | h | h | h | h | h | h | h
    · omega
    · omega
    · exact h hbits
    · exact h hmode
    · exact h hnd
    · exact h25 h
    · exact hr1 h
    · exact hr2 h
    · exact hr3 h
    · exact hr4 h
    · exact hr5 h
  exact if_neg hbad

end Sys2Proof.Machine
end

section
/-! PROOFS. Single operations (10_state.md R22; 20_memory.md R52, R54; 41_frame_packer.md R78; 60_exceptions.md R122) and the state
after reset. Settles O14, O15, O17, O18, O20, O27, O52 and O60. -/

namespace Sys2Proof.Machine

/-! ### STATUS and ERROR -/

/-- The lowest bit of a word put together of bits is the last of them. -/
theorem getLsbD_append_ofBool {w : Nat} (x : BitVec w) (b : Bool) (i : Nat) :
    (x ++ BitVec.ofBool b).getLsbD i = if i = 0 then b else x.getLsbD (i - 1) := by
  rw [BitVec.getLsbD_append]
  cases i <;> simp

/-- STATUS bit by bit (R22). -/
theorem statusWord_getLsbD (s : State) (i : Nat) :
    s.statusWord.getLsbD i = [s.busy, s.session, s.frameValid, s.hazard, s.lastRefreshValid, s.cleanupErr, s.busOpen, false,
      s.exported.power, s.exported.reset, s.exported.cs, s.exported.dc, s.exported.busy].getD i false := by
  show BitVec.getLsbD (w := 19 + 5 + 1 + 1 + 1 + 1 + 1 + 1 + 1 + 1) ((0#19) ++ s.exported.bits ++ (0#1) ++
    BitVec.ofBool s.busOpen ++ BitVec.ofBool s.cleanupErr ++ BitVec.ofBool s.lastRefreshValid ++ BitVec.ofBool s.hazard ++
    BitVec.ofBool s.frameValid ++ BitVec.ofBool s.session ++ BitVec.ofBool s.busy) i = _
  iterate 7 rw [getLsbD_append_ofBool]
  iterate 2 rw [BitVec.getLsbD_append]
  unfold Exported.bits
  iterate 4 rw [getLsbD_append_ofBool]
  by_cases h : i < 13
  · interval_cases i <;> simp
  · obtain ⟨k, rfl⟩ := Nat.exists_eq_add_of_le' (Nat.not_lt.1 h)
    simp

/-- The number of two words put together. -/
theorem toNat_append_eq {m n : Nat} (x : BitVec m) (y : BitVec n) : (x ++ y).toNat = x.toNat * 2 ^ n + y.toNat := by
  rw [BitVec.toNat_append, ← Nat.shiftLeft_add_eq_or_of_lt y.isLt, Nat.shiftLeft_eq]

/-- ERROR as a number (R25). -/
theorem errorWord_toNat (e : ErrorReg) :
    e.word.toNat = e.item.toNat * 2 ^ 20 + e.step.toNat * 2 ^ 12 + e.phase.bits.toNat * 2 ^ 8 + e.code.bits.toNat := by
  show BitVec.toNat (w := 4 + 8 + 8 + 4 + 8) ((0#4) ++ e.item ++ e.step ++ e.phase.bits ++ e.code.bits) = _
  iterate 4 rw [toNat_append_eq]
  simp
  omega

/-- Settles O14: STATUS is its fields, one after the other. -/
theorem statusBitsAtTheirPlaces : Obligations.StatusBitsAtTheirPlaces := by
  intro s
  simp only [statusWord_getLsbD]
  exact ⟨rfl, rfl, rfl, rfl, rfl, rfl, rfl, rfl, rfl, rfl, rfl, rfl, rfl, fun i hi => List.getD_eq_default _ _ hi⟩
/-- Settles O17: `raise` sets ERROR, and its two cases are R122's. -/
theorem raiseRecordsAndDiverts : Obligations.RaiseRecordsAndDiverts := by
  intro s e p step item hstep hitem
  have herr : (s.raise e p step item).error =
      { code := e, phase := p, step := BitVec.ofNat 8 step, item := BitVec.ofNat 8 item } := by
    rcases raise_cases s e p step item with ⟨-, -, h⟩ | h <;> rw [h] <;> rfl
  have hcond : (e.isHardware && (p == .init || p == .transfer)) = true ↔
      (e = .hardwareIo ∨ e = .hardwareTimeout) ∧ (p = .init ∨ p = .transfer) := by
    cases e <;> simp [ErrorCode.isHardware]
  refine ⟨?_, fun h => ?_, fun h => ?_⟩
  · rw [herr]
    apply BitVec.eq_of_toNat_eq
    have hp := p.bits.isLt
    have he := e.bits.isLt
    rw [errorWord_toNat, BitVec.toNat_ofNat, BitVec.toNat_ofNat, BitVec.toNat_ofNat, Nat.mod_eq_of_lt hstep,
      Nat.mod_eq_of_lt hitem]
    show item * 2 ^ 20 + step * 2 ^ 12 + p.bits.toNat * 2 ^ 8 + e.bits.toNat = _
    omega
  · rw [herr, State.raise, if_pos (hcond.2 h)]; rfl
  · rw [herr, State.raise, if_neg (mt hcond.1 h)]; rfl

/-! ### Events -/

/-- Settles O18: `emit` takes the head of `env`, and its outcome is `outcomeOf`. -/
theorem eventEntersTrace : Obligations.EventEntersTrace := by
  intro s e a rest henv
  have hans : s.answer = a := by simp [State.answer, henv]
  refine ⟨s.outcomeOf e a, e.minMs, ?_, ?_⟩
  · simp [State.emit, State.takeAnswer, henv, hans]
  cases e with
  | delay ms => exact .inl ⟨ms, rfl, rfl, rfl⟩
  | _ =>
    refine .inr ⟨by simp, rfl, by simp [outcomeOf_eq_fail_iff], ?_, ?_⟩
    all_goals intros; simp_all [State.outcomeOf, State.brightness]

/-! ### Geometry -/

/-- Settles O20: with W divisible by 8 the product is 8*L, so its bound is L's. -/
theorem geometryValidExactly : Obligations.GeometryValidExactly := by
  intro w h
  rw [geometryValid_iff]
  have hmod : w % 8 = 0 → w * h % 8 = 0 := fun h8 => by simp [Nat.mul_mod, h8]
  constructor
  · rintro ⟨h1, h2, h3, h4⟩
    exact ⟨h1, h2, h3, by omega⟩
  · rintro ⟨h1, h2, h3, h4⟩
    have := hmod h3
    exact ⟨h1, h2, h3, by omega⟩

/-- Settles O27: the default table lists 400×300 alone. -/
theorem defaultActivationChoice : Obligations.DefaultActivationChoice := by
  intro s h
  have hA : s.activatesA = decide (s.panelWidth = 400 ∧ s.panelHeight = 300) := by
    simp [State.activatesA, h, Config.params, Config.refWidth, Config.refHeight, BitVec.toNat_eq]
  simp [State.wireBytes, hA]

/-! ### The state after reset -/

/-- Settles O15: the fields of `State.reset`. -/
theorem resetStateAsListed : Obligations.ResetStateAsListed := by
  exact ⟨by decide, by decide, rfl, rfl, rfl, rfl, rfl, rfl, rfl, rfl, rfl, rfl, rfl, rfl, rfl, fun _ => ⟨rfl, rfl⟩, rfl, rfl⟩

/-- Settles O52: at rest, with no session, no frame and no event, each invariant holds. -/
theorem resetMeetsEveryInvariant : Obligations.ResetMeetsEveryInvariant := by
  have hrest : State.reset.atRest := ⟨rfl, rfl⟩
  refine ⟨⟨.nil, .nil⟩, (cursorInvariant_iff _).2 (.inl hrest),
    frameInvariant_of_not_encode (by decide) (frameWhole_of_invalid rfl), linesInvariant_of_fresh hrest rfl rfl,
    ⟨.nil, fun t ht => by cases ht⟩, ⟨?_, fun e he => by cases he⟩, ⟨fun l => ?_, rfl, cleanupOnHeld_nil⟩⟩
  · exact ⟨fun h => (by cases h), fun h => (by cases h), fun h => (by cases h), fun h => absurd rfl h⟩
  · cases l <;> rfl

/-! ### The bits on the wire -/

/-- The bits of one byte in the order they go out (R52). -/
def byteBits (msbFirst : Bool) (b : Byte) : List Bool := if msbFirst then bitsMsbFirst b else (bitsMsbFirst b).reverse

theorem byteBits_length (m : Bool) (b : Byte) : (byteBits m b).length = 8 := by cases m <;> simp [byteBits, bitsMsbFirst]

theorem byteBits_get {j : Nat} (h : j < 8) (m : Bool) (b : Byte) :
    (byteBits m b)[j]? = some (b.getLsbD (if m then 7 - j else j)) := by
  have hj : 7 - (7 - j) = j := by omega
  cases m
  · rw [byteBits, if_neg (by decide), List.getElem?_reverse (by simpa [bitsMsbFirst] using h)]
    have hlt : 7 - j < 8 := by omega
    simp [bitsMsbFirst, hlt, hj]
  · simp [byteBits, bitsMsbFirst, h]

theorem wireBits_length (m : Bool) (bytes : List Byte) : (wireBits m bytes).length = 8 * bytes.length := by
  induction bytes with
  | nil => rfl
  | cons b bytes ih =>
    have := byteBits_length m b
    rw [wireBits_cons, List.length_append, ih, List.length_cons]
    unfold byteBits at this
    omega

/-- Bit j of byte i goes out as bit 8*i + j (R52). -/
theorem wireBits_get {j : Nat} (h : j < 8) (m : Bool) (bytes : List Byte) (i : Nat) :
    (wireBits m bytes)[8 * i + j]? = bytes[i]?.map (fun b => b.getLsbD (if m then 7 - j else j)) := by
  induction bytes generalizing i with
  | nil => rfl
  | cons b bytes ih =>
    have hlen := byteBits_length m b
    show (byteBits m b ++ wireBits m bytes)[8 * i + j]? = _
    cases i with
    | zero =>
      rw [List.getElem?_append_left (by omega), Nat.mul_zero, Nat.zero_add, byteBits_get h]
      rfl
    | succ i =>
      rw [List.getElem?_append_right (by omega), hlen, show 8 * (i + 1) + j - 8 = 8 * i + j by omega, ih]
      rfl

/-- An event adds to the wire what its entry puts there (log 25). -/
theorem emit_sentBits (e : Event) (s : State) : (s.emit e).sentBits = s.sentBits ++ s.entryBits (s.entry e) := by
  have hbits : (s.emit e).entryBits = s.entryBits := by
    funext x; unfold State.entryBits State.busBits; rw [State.emit_params]
  rw [State.sentBits, hbits, State.emit_trace, List.flatMap_append]
  simp [State.sentBits, State.entry]

/-- Settles O60: the bits go out byte by byte (`wireBits_get`), and an event adds those of its entry (`emit_sentBits`). -/
theorem wireBitsInOrder : Obligations.WireBitsInOrder := by
  intro s bytes i j hj
  refine ⟨wireBits_length _ _, fun hm => ?_, fun hm => ?_, fun hok => ?_, fun e he => ?_⟩
  · rw [State.busBits, wireBits_get hj, hm]; rfl
  · rw [State.busBits, wireBits_get hj, hm]; rfl
  · rw [emit_sentBits]
    simp [State.entryBits, State.outcomeOf, hok]
  · rw [emit_sentBits]
    have hnone : s.entryBits (s.entry e) = [] := by
      cases e with
      | busWrite bs => simp [State.entryBits, State.outcomeOf, he ⟨bs, rfl⟩]
      | _ => rfl
    rw [hnone, List.append_nil]

end Sys2Proof.Machine
end

section
/-! PROOFS. The controller's preconditions, the moves of its busy wait and the writes of its wire commands, each as the exact next
state (42_panel_sequencer.md R92, R94, R95, R97, R101, R104; 43_panel_commands.md). Settles O28, O31, O34 and O40 to O46. -/

namespace Sys2Proof.Machine

/-! ### Preconditions -/

/-- A move at a test. -/
theorem move_test {s : State} {k : Check} (ha : actionAt s.seq = some (.test k)) :
    s.move = s.require (s.passes k) k.error := by
  have hskip : s.skips (.test k) = false := by simp [State.skips, State.holdsFor]
  rw [move_of_action ha, State.controllerMove, ha, ← runCheck_eq]
  simp only [hskip, Bool.false_eq_true, if_false]
  rfl

/-- A test that holds, in a run. -/
theorem run_test_passes {s : State} (n : Nat) {k : Check} {c : Cursor} (hb : s.busy = true) (hi : s.inputs = [])
    (ha : actionAt s.seq = some (.test k)) (hn : nextItem s.seq = some c) (h : s.passes k = true) :
    State.run (n + 1) s = State.run n { s with seq := c, wait := .idle } := by
  rw [run_succ n hb hi, move_test ha, State.require, if_pos h, advance_of_next hn]

/-- A test that does not hold ends the operation, with its error at the cursor. -/
theorem run_test_fails {s : State} (n : Nat) {k : Check} (hb : s.busy = true) (hi : s.inputs = [])
    (ha : actionAt s.seq = some (.test k)) (h : s.passes k = false) :
    State.run (n + 1) s = (s.setError k.error s.seq.op.phase s.seq.step s.seq.item).endOperation := by
  have hraise : s.raiseHere k.error = (s.setError k.error s.seq.op.phase s.seq.step s.seq.item).endOperation := by
    unfold State.raiseHere State.raise
    rw [check_error_not_hardware]
    rfl
  rw [run_succ n hb hi, move_test ha, State.require, h]
  exact (congrArg (State.run n) hraise).trans (run_of_notBusy n rfl)

/-- A host command that is accepted runs for more moves than an operation has tests. -/
theorem hostCommand_of_idle (op : Op) {s : State} (hb : s.busy = false) :
    s.hostCommand op =
      State.run (120996 + 8 * (s.busyTimeout.toNat / Config.busyPollMs + 2) + 4) (s.acceptCommand op op.firstStep) := by
  have hidle : ¬ s.busy = true := by simp [hb]
  rw [State.hostCommand, if_neg hidle]
  exact congrArg (fun n => State.run n _) (show s.moveBound = _ by unfold State.moveBound; omega)

/-- Settles O34: POWER_OFF's first item tests SESSION. -/
theorem powerOffInIdleIsInvalid : Obligations.PowerOffInIdleIsInvalid := by
  intro s hb hs hi
  show Host.Outcome.next (s.hostCommand .powerOff) = _
  rw [hostCommand_of_idle _ hb]
  exact congrArg _ (run_test_fails (k := .sessionActive) _ rfl hi rfl hs)

/-- Settles O28: POWER_ON's first two items test SESSION and the panel's geometry. -/
theorem powerOnPreconditions : Obligations.PowerOnPreconditions := by
  intro s hb hi
  refine ⟨fun hs => ?_, fun hs hg => ?_⟩
  · have hfails : (s.acceptCommand .powerOn 0).passes .sessionIdle = false := congrArg (!·) hs
    show Host.Outcome.next (s.hostCommand .powerOn) = _
    rw [hostCommand_of_idle _ hb]
    exact congrArg _ (run_test_fails (s := s.acceptCommand .powerOn 0) _ rfl hi rfl hfails)
  · have hidle : (s.acceptCommand .powerOn 0).passes .sessionIdle = true := congrArg (!·) hs
    show Host.Outcome.next (s.hostCommand .powerOn) = _
    rw [hostCommand_of_idle _ hb]
    refine congrArg _ ((run_test_passes (s := s.acceptCommand .powerOn 0) (c := ⟨.powerOn, 0, 1⟩) _ rfl hi rfl rfl
      hidle).trans ?_)
    exact run_test_fails (k := .panelGeometry) _ rfl hi rfl hg

/-- Settles O31: SEND_IMAGE's first four items are its tests. -/
theorem sendImagePreconditionsInOrder : Obligations.SendImagePreconditionsInOrder := by
  intro s hb hi
  have first (n : Nat) (hs : s.session = true) : State.run (n + 1) (s.acceptCommand .sendImage 1) =
      State.run n { s.acceptCommand .sendImage 1 with seq := ⟨.sendImage, 1, 1⟩, wait := .idle } :=
    run_test_passes (k := .sessionActive) n rfl hi rfl rfl hs
  have second (n : Nat) (hs : s.session = true) (hf : s.frameValid = true) :
      State.run (n + 2) (s.acceptCommand .sendImage 1) =
        State.run n { s.acceptCommand .sendImage 1 with seq := ⟨.sendImage, 1, 2⟩, wait := .idle } :=
    (first _ hs).trans (run_test_passes (k := .frameHeld) n rfl hi rfl rfl hf)
  have third (n : Nat) (hs : s.session = true) (hf : s.frameValid = true)
      (hm : (decide (s.frameWidth = s.panelWidth) && decide (s.frameHeight = s.panelHeight)) = true) :
      State.run (n + 3) (s.acceptCommand .sendImage 1) =
        State.run n { s.acceptCommand .sendImage 1 with seq := ⟨.sendImage, 1, 3⟩, wait := .idle } :=
    (second _ hs hf).trans (run_test_passes (k := .frameMatches) n rfl hi rfl rfl hm)
  show (_ → Host.Outcome.next (s.hostCommand .sendImage) = _) ∧ (_ → _ → Host.Outcome.next (s.hostCommand .sendImage) = _) ∧
    (_ → _ → _ → Host.Outcome.next (s.hostCommand .sendImage) = _) ∧
    (_ → _ → _ → _ → _ → _ → Host.Outcome.next (s.hostCommand .sendImage) = _)
  rw [hostCommand_of_idle _ hb]
  refine ⟨fun hs => congrArg _ ?_, fun hs hf => congrArg _ ?_, fun hs hf hm => congrArg _ ?_,
    fun hs hf hw hh hv hsoon => congrArg _ ?_⟩
  · exact run_test_fails (k := .sessionActive) _ rfl hi rfl hs
  · exact (first _ hs).trans (run_test_fails (k := .frameHeld) _ rfl hi rfl hf)
  · have hno : (decide (s.frameWidth = s.panelWidth) && decide (s.frameHeight = s.panelHeight)) = false := by
      simpa [imp_iff_not_or] using hm
    exact (second _ hs hf).trans (run_test_fails (k := .frameMatches) _ rfl hi rfl hno)
  · have hm : (decide (s.frameWidth = s.panelWidth) && decide (s.frameHeight = s.panelHeight)) = true := by simp [hw, hh]
    have hno : s.refreshAllowed = false := by
      rw [State.refreshAllowed, hv]
      exact decide_eq_false (Nat.not_le.2 hsoon)
    exact (third _ hs hf hm).trans (run_test_fails (k := .refreshAllowed) _ rfl hi rfl hno)

/-! ### Failures -/

/-- A failed item of POWER_ON or SEND_IMAGE raises its error at the cursor, and CLEANUP begins (R92, R122). -/
theorem failItem_starts {s : State} {e : ErrorCode} (he : e.isHardware = true)
    (ho : s.seq.op = .powerOn ∨ s.seq.op = .sendImage) :
    s.failItem e = { s with
      error := { code := e, phase := s.seq.op.phase, step := BitVec.ofNat 8 s.seq.step, item := BitVec.ofNat 8 s.seq.item }
      seq := { op := .cleanup, step := 1, item := 0 }, wait := .idle } := by
  have hraise : s.failItem e = s.raiseHere e := by unfold State.failItem; rcases ho with ho | ho <;> rw [ho]
  have hcond : (e.isHardware && (s.seq.op.phase == .init || s.seq.op.phase == .transfer)) = true := by
    rcases ho with ho | ho <;> rw [ho, he] <;> rfl
  rw [hraise, State.raiseHere, State.raise, if_pos hcond]
  rfl

/-- A failure in step 1 of a shutdown goes to step 2 (R101, R104). -/
theorem advanceAfterFail_first {s : State} {op : Op} (ho : s.seq.op = op) (h1 : s.seq.step = 1) :
    s.advanceAfterFail = { s with seq := { op := op, step := 2, item := 0 }, wait := .idle } := by
  subst ho
  exact if_pos h1

/-- POWER_OFF notes a failure in step 1, and goes to step 2 (R101). -/
theorem failItem_powerOff_first {s : State} (e : ErrorCode) (ho : s.seq.op = .powerOff) (h1 : s.seq.step = 1) :
    s.failItem e = { s with
      error := if s.error.code = .none then { code := e, phase := .shutdown, step := 1, item := BitVec.ofNat 8 s.seq.item }
        else s.error
      seq := { op := .powerOff, step := 2, item := 0 }, wait := .idle } := by
  have hnote : s.note e = { s with
      error := if s.error.code = .none then { code := e, phase := .shutdown, step := 1, item := BitVec.ofNat 8 s.seq.item }
        else s.error } := by
    unfold State.note
    split
    · rw [State.setError, h1]; rfl
    · rfl
  unfold State.failItem
  rw [ho]
  show (s.note e).advanceAfterFail = _
  rw [hnote]
  exact advanceAfterFail_first ho h1

/-- CLEANUP records a failure in step 1, and goes to step 2 (R104). -/
theorem failItem_cleanup_first {s : State} (e : ErrorCode) (ho : s.seq.op = .cleanup) (h1 : s.seq.step = 1) :
    s.failItem e = { s with cleanupErr := true, seq := { op := .cleanup, step := 2, item := 0 }, wait := .idle } := by
  unfold State.failItem
  rw [ho]
  exact advanceAfterFail_first (s := s.cleanupFail) ho h1

/-! ### The busy wait -/

/-- A move at a busy wait that is not skipped. -/
theorem move_wait {s : State} {b : Bool} (ha : actionAt s.seq = some (.waitBusy b))
    (hh : s.seq.op = .cleanup → s.busOpen = true ∧ s.exported.busy = true) : s.move = s.waitMove b := by
  have hskip : s.skips (.waitBusy b) = false := by
    by_cases h : s.seq.op = .cleanup
    · simp [State.skips, State.holdsFor, h, hh h]
    · simp [State.skips, h]
  rw [move_of_action ha, State.controllerMove, ha]
  simp only [hskip, Bool.false_eq_true, if_false]
  rfl

theorem advance_setWait (w : Wait) (s : State) : State.advance { s with wait := w } = s.advance := by
  have hclosing : (State.closing { s with wait := w }).endOperation = s.closing.endOperation := by
    unfold State.closing State.endOperation
    dsimp only
    split <;> rfl
  unfold State.advance
  dsimp only
  split
  · rfl
  · exact hclosing

theorem failItem_setWait (e : ErrorCode) (w : Wait) (s : State) :
    State.failItem e { s with wait := w } = s.failItem e := by
  have hafter (u : State) : State.advanceAfterFail { u with wait := w } = u.advanceAfterFail := by
    unfold State.advanceAfterFail
    dsimp only
    split
    · rfl
    · exact advance_setWait w u
  have hraise : State.raiseHere e { s with wait := w } = s.raiseHere e := by
    unfold State.raiseHere State.raise
    dsimp only
    split <;> rfl
  have hnote : State.note e { s with wait := w } = { s.note e with wait := w } := by
    unfold State.note
    dsimp only
    split <;> rfl
  unfold State.failItem
  dsimp only
  split
  · exact hraise
  · exact hraise
  · exact (congrArg State.advanceAfterFail hnote).trans (hafter _)
  · exact hafter s.cleanupFail
  · rfl
  · exact hraise

theorem emit_setWait (e : Event) (w : Wait) (s : State) : State.emit e { s with wait := w } = { s.emit e with wait := w } := by
  unfold State.emit State.takeAnswer
  dsimp only
  split <;> rfl

/-- A poll does not look at where its wait stood. -/
theorem pollBusy_setWait (b : Bool) (t0 : Nat) (w : Wait) (s : State) :
    State.pollBusy b t0 { s with wait := w } = s.pollBusy b t0 := by
  have hafter (level : Bool) (u : State) : State.afterPoll b t0 level { u with wait := w } = u.afterPoll b t0 level := by
    unfold State.afterPoll
    rw [advance_setWait, failItem_setWait]
    rfl
  unfold State.pollBusy
  rw [emit_setWait, failItem_setWait, hafter]
  rfl

section WaitMoves

variable {s : State} {b : Bool} {t0 : Nat} (ha : actionAt s.seq = some (.waitBusy b))
  (hh : s.seq.op = .cleanup → s.busOpen = true ∧ s.exported.busy = true)
include ha hh

/-- The first poll is at once, with t0 = Now() (R94). -/
theorem move_wait_begins (hw : s.wait = .idle) : s.move = State.move { s with wait := .poll s.now } := by
  have hpoll : State.move { s with wait := .poll s.now } = State.pollBusy b s.now { s with wait := .poll s.now } :=
    move_wait (s := { s with wait := .poll s.now }) ha hh
  rw [move_wait ha hh, hpoll, pollBusy_setWait]
  simp [State.waitMove, hw]

theorem move_wait_sleeps (hw : s.wait = .sleep t0) : s.move = { s.emit (.delay 5) with wait := .poll t0 } := by
  rw [move_wait ha hh, State.waitMove, hw]
  rfl

theorem move_wait_polls (hw : s.wait = .poll t0) : s.move = s.pollBusy b t0 := by
  rw [move_wait ha hh, State.waitMove, hw]

/-- A poll that matches (R94). -/
theorem move_wait_matches (hw : s.wait = .poll t0) (hok : s.answer.ok = true) (hl : s.answer.level = s.targetLevel b) :
    s.move = (s.emit (.get (s.lineNumber .busy))).advance := by
  have htarget : (s.emit (.get (s.lineNumber .busy))).targetLevel b = s.targetLevel b := by simp [State.targetLevel]
  rw [move_wait_polls ha hh hw, State.pollBusy, if_pos hok, State.afterPoll, if_pos (hl.trans htarget.symm)]

/-- A poll that does not match: the bound is tested (R94). -/
theorem move_wait_mismatch (hw : s.wait = .poll t0) (hok : s.answer.ok = true) (hl : s.answer.level ≠ s.targetLevel b) :
    s.move = if s.busyTimeout.toNat ≤ s.now + s.answer.ms - t0 then
        (s.emit (.get (s.lineNumber .busy))).failItem .hardwareTimeout
      else { s.emit (.get (s.lineNumber .busy)) with wait := .sleep t0 } := by
  have htarget : (s.emit (.get (s.lineNumber .busy))).targetLevel b = s.targetLevel b := by simp [State.targetLevel]
  have hne : ¬ s.answer.level = (s.emit (.get (s.lineNumber .busy))).targetLevel b := htarget ▸ hl
  rw [move_wait_polls ha hh hw, State.pollBusy, if_pos hok, State.afterPoll, if_neg hne]
  simp [Event.minMs]

/-- A poll that fails (R92). -/
theorem move_wait_fails (hw : s.wait = .poll t0) (hok : s.answer.ok = false) :
    s.move = (s.emit (.get (s.lineNumber .busy))).failItem .hardwareIo := by
  have hno : ¬ s.answer.ok = true := by simp [hok]
  rw [move_wait_polls ha hh hw, State.pollBusy, if_neg hno]

end WaitMoves

/-- Settles O40: at each of its items the wait is one `waitMove`; a match advances, and a failure is `failItem` of its operation. -/
theorem busyWaitMoves : Obligations.BusyWaitMoves := by
  intro s t0 c target hseq hc
  obtain ⟨b, ha, hh, hlevel⟩ : ∃ b, actionAt s.seq = some (.waitBusy b) ∧
      (s.seq.op = .cleanup → s.busOpen = true ∧ s.exported.busy = true) ∧ s.targetLevel b = target := by
    rw [hseq]
    rcases hc with ⟨rfl, rfl⟩ | ⟨rfl, rfl⟩ | ⟨rfl, rfl⟩ | ⟨rfl, rfl⟩ | ⟨rfl, rfl, hheld⟩
    · exact ⟨true, rfl, fun h => (by cases h), rfl⟩
    · exact ⟨false, rfl, fun h => (by cases h), rfl⟩
    · exact ⟨true, rfl, fun h => (by cases h), rfl⟩
    · exact ⟨true, rfl, fun h => (by cases h), rfl⟩
    · exact ⟨true, rfl, fun _ => hheld, rfl⟩
  have hpos : c = { op := .sendImage, step := 3, item := 0 } ∨ c = { op := .sendImage, step := 4, item := 1 } ∨
      c = { op := .sendImage, step := 5, item := 1 } ∨ c = { op := .powerOff, step := 1, item := 1 } ∨
      c = { op := .cleanup, step := 1, item := 1 } := by tauto
  have hget : Event.get s.params.lines.busy = .get (s.lineNumber .busy) := rfl
  have hop : (s.emit (.get (s.lineNumber .busy))).seq = c := by simpa using hseq
  subst hlevel
  rw [hget]
  refine ⟨fun hw h0 => ?_, fun hw => move_wait_sleeps ha hh hw, fun hw hok hl hearly => ?_, fun hw hok hl => ?_,
    fun code hw hcode => ?_⟩
  · rw [h0]; exact move_wait_begins ha hh hw
  · rw [move_wait_mismatch ha hh hw hok hl, if_neg (Nat.not_le.2 hearly)]
  · rw [move_wait_matches ha hh hw hok hl]
    refine ⟨?_, ?_, ?_, ?_⟩
    · rintro rfl; exact advance_of_next (by rw [hop]; rfl)
    · rintro rfl; exact advance_of_next (by rw [hop]; rfl)
    · rintro rfl
      rw [advance_of_last (by rw [hop]; rfl), State.closing, hop]
      rfl
    · intro h
      refine advance_of_next ?_
      rw [hop]
      rcases hpos with rfl | rfl | rfl | rfl | rfl
      · simp at h
      · simp at h
      · simp at h
      · rfl
      · rfl
  · have hmove : s.move = (s.emit (.get (s.lineNumber .busy))).failItem code ∧ code.isHardware = true := by
      rcases hcode with ⟨hok, rfl⟩ | ⟨hok, hl, hlate, rfl⟩
      · exact ⟨move_wait_fails ha hh hw hok, rfl⟩
      · exact ⟨by rw [move_wait_mismatch ha hh hw hok hl, if_pos hlate], rfl⟩
    rw [hmove.1]
    refine ⟨fun h => ?_, fun h => ?_, fun h => ?_⟩
    · rw [failItem_starts hmove.2 (.inr (hop ▸ h)), hop, h]
      rfl
    · obtain rfl : c = { op := .powerOff, step := 1, item := 1 } := by rcases hpos with rfl | rfl | rfl | rfl | rfl <;> simp_all
      rw [failItem_powerOff_first code (by rw [hop]) (by rw [hop]), hop, State.emit_error]
      rfl
    · obtain rfl : c = { op := .cleanup, step := 1, item := 1 } := by rcases hpos with rfl | rfl | rfl | rfl | rfl <;> simp_all
      exact failItem_cleanup_first code (by rw [hop]) (by rw [hop])

/-! ### Wire commands -/

/-- A wire command's write at its item, on Ok: the next item (R92, R93). -/
theorem writeAt_ok {s : State} {w : WireItem} {c : Cursor} (bytes : List Byte) (hr : w ≠ .refresh)
    (ha : actionAt s.seq = some (.wire w)) (hn : nextItem s.seq = some c) (hok : s.answer.ok = true) :
    s.writeAt w bytes = .next { s.emit (.busWrite bytes) with seq := c, wait := .idle } := by
  have hn' : nextItem (s.emit (.busWrite bytes)).seq = some c := by simpa using hn
  rw [writeAt_next ha, State.wireWrite, if_neg hr, State.checkedEvent, State.settle, if_pos hok]
  exact congrArg _ (advance_of_next hn')

/-- A wire command's write at its item, on Fail (R92). -/
theorem writeAt_fail {s : State} {w : WireItem} (bytes : List Byte) (hr : w ≠ .refresh)
    (ha : actionAt s.seq = some (.wire w)) (hok : s.answer.ok = false) :
    s.writeAt w bytes = .next ((s.emit (.busWrite bytes)).failItem .hardwareIo) := by
  have hno : ¬ s.answer.ok = true := by simp [hok]
  rw [writeAt_next ha, State.wireWrite, if_neg hr, State.checkedEvent, State.settle, if_neg hno]

/-- The stamp of REFRESH stays through its write. -/
theorem emit_stampRefresh (e : Event) (s : State) :
    s.stampRefresh.emit e = { s.emit e with lastRefresh := BitVec.ofNat 64 s.now, lastRefreshValid := true } := by
  unfold State.emit State.takeAnswer State.stampRefresh
  dsimp only
  split <;> rfl

/-- REFRESH at its item (R98, R119). -/
theorem exec_refresh_at {s : State} (ha : actionAt s.seq = some (.wire .refresh)) :
    exec .refresh s = .next (State.settle s.answer.ok id { s.emit (.busWrite [0x12, 0x12]) with
      lastRefresh := BitVec.ofNat 64 s.now, lastRefreshValid := true }) := by
  rw [← emit_stampRefresh]
  exact (writeAt_next ha _).trans (congrArg _ (if_pos rfl))

theorem cursor_eq {c : Cursor} {op : Op} {j k : Nat} (ho : c.op = op) (hj : c.step = j) (hk : c.item = k) :
    c = { op := op, step := j, item := k } := by
  subst ho hj hk; rfl

/-- Settles O41: each is `writeAt_ok` at its item; PANEL_SETTINGS is the last item of POWER_ON. -/
theorem powerOnWireCommandsWrite : Obligations.PowerOnWireCommandsWrite := by
  intro s hok ho
  refine ⟨fun hj hk => ?_, fun hj hk code => ?_, fun hj hk => ⟨?_, ?_⟩, fun hj hk => ?_⟩
  all_goals have hc := cursor_eq ho hj hk
  · exact writeAt_ok (w := .softReset) _ (by decide) (by rw [hc]; rfl) (by rw [hc]; rfl) hok
  · exact writeAt_ok (w := .tempComp) _ (by decide) (by rw [hc]; rfl) (by rw [hc]; rfl) hok
  · exact writeAt_ok (w := .activate) _ (by decide) (by rw [hc]; rfl) (by rw [hc]; rfl) hok
  · exact writeAt_ok (w := .activate) _ (by decide) (by rw [hc]; rfl) (by rw [hc]; rfl) hok
  · have hseq : (s.emit (.busWrite [0x00, 0x0F, 0x89])).seq = { op := .powerOn, step := 6, item := 0 } := by simpa using hc
    have hwrite : s.writeAt .panelSettings [0x00, 0x0F, 0x89] = .next (s.emit (.busWrite [0x00, 0x0F, 0x89])).advance := by
      rw [writeAt_next (by rw [hc]; rfl), State.wireWrite, if_neg (by decide), State.checkedEvent, State.settle, if_pos hok]
      rfl
    refine hwrite.trans (congrArg _ ?_)
    rw [advance_of_last (by rw [hseq]; rfl), State.closing, hseq]
    rfl

/-- Settles O42: each is `writeAt_fail` at its item. -/
theorem powerOnWireCommandsFail : Obligations.PowerOnWireCommandsFail := by
  intro s i k hok hc hi
  have fails {w : WireItem} {bytes : List Byte} (hr : w ≠ .refresh) (ha : actionAt s.seq = some (.wire w)) :
      s.writeAt w bytes = .next { s.emit (.busWrite bytes) with
        error := { code := .hardwareIo, phase := .init, step := BitVec.ofNat 8 k, item := 0 }
        seq := { op := .cleanup, step := 1, item := 0 }, wait := .idle } := by
    have hseq : (s.emit (.busWrite bytes)).seq = { op := .powerOn, step := k, item := 0 } := by simpa using hc
    rw [writeAt_fail bytes hr ha hok, failItem_starts rfl (.inl (by rw [hseq])), hseq]
    rfl
  rcases hi with ⟨rfl, rfl⟩ | ⟨rfl, code, rfl⟩ | ⟨rfl, rfl | rfl⟩ | ⟨rfl, rfl⟩
  · exact fails (w := .softReset) (by decide) (by rw [hc]; rfl)
  · exact fails (w := .tempComp) (by decide) (by rw [hc]; rfl)
  · exact fails (w := .activate) (by decide) (by rw [hc]; rfl)
  · exact fails (w := .activate) (by decide) (by rw [hc]; rfl)
  · exact fails (w := .panelSettings) (by decide) (by rw [hc]; rfl)

/-- LAYER_DATA writes the payload of the item it stands at (R117). -/
theorem exec_layerData {s : State} {data : List Byte} {w : WireItem} (ha : actionAt s.seq = some (.wire w))
    (hw : w = .dataPrimary ∨ w = .dataSecondary) : exec (.layerData data) s = s.writeAt w data := by
  show execLayerData data s = _
  have hat : s.atWireItem .dataPrimary = (w == .dataPrimary) := by
    rcases hw with rfl | rfl <;> simp [State.atWireItem, ha]
  unfold execLayerData
  rw [hat]
  rcases hw with rfl | rfl <;> rfl

/-- Settles O43: each is `writeAt_ok` at its item, REFRESH with its stamp. -/
theorem sendImageWireCommandsWrite : Obligations.SendImageWireCommandsWrite := by
  intro s hok ho
  refine ⟨fun hj hk => ?_, fun hj hk => ?_, fun hj hk data => ?_, fun hj hk => ?_, fun hj hk => ?_⟩
  · have hc := cursor_eq ho hj hk
    exact writeAt_ok (w := .selPrimary) _ (by decide) (by rw [hc]; rfl) (by rw [hc]; rfl) hok
  · have hc := cursor_eq ho hj hk
    exact writeAt_ok (w := .selSecondary) _ (by decide) (by rw [hc]; rfl) (by rw [hc]; rfl) hok
  · rcases hk with hk | hk
    · have hc := cursor_eq ho hj hk
      have ha : actionAt s.seq = some (.wire .dataPrimary) := by rw [hc]; rfl
      rw [exec_layerData ha (.inl rfl), hk]
      exact writeAt_ok _ (by decide) ha (by rw [hc]; rfl) hok
    · have hc := cursor_eq ho hj hk
      have ha : actionAt s.seq = some (.wire .dataSecondary) := by rw [hc]; rfl
      rw [exec_layerData ha (.inr rfl), hk]
      exact writeAt_ok _ (by decide) ha (by rw [hc]; rfl) hok
  · have hc := cursor_eq ho hj hk
    exact writeAt_ok (w := .powerOnDisplay) _ (by decide) (by rw [hc]; rfl) (by rw [hc]; rfl) hok
  · have hc := cursor_eq ho hj hk
    rw [exec_refresh_at (by rw [hc]; rfl), State.settle, if_pos hok]
    exact congrArg _ (advance_of_next (c := ⟨.sendImage, 5, 1⟩) (by simp [hc]; rfl))

/-- Settles O44: each is `writeAt_fail` at its item, REFRESH with its stamp. -/
theorem sendImageWireCommandsFail : Obligations.SendImageWireCommandsFail := by
  intro s i j k hok hc hi
  have starts {u : State} (hseq : u.seq = { op := .sendImage, step := j, item := k }) :
      u.failItem .hardwareIo = { u with
        error := { code := .hardwareIo, phase := .transfer, step := BitVec.ofNat 8 j, item := BitVec.ofNat 8 k }
        seq := { op := .cleanup, step := 1, item := 0 }, wait := .idle } := by
    rw [failItem_starts rfl (.inr (by rw [hseq])), hseq]
    rfl
  have plain {w : WireItem} {bytes : List Byte} (hr : w ≠ .refresh) (ha : actionAt s.seq = some (.wire w)) :
      s.writeAt w bytes = .next { s.emit (.busWrite bytes) with
        lastRefresh := s.lastRefresh, lastRefreshValid := s.lastRefreshValid
        error := { code := .hardwareIo, phase := .transfer, step := BitVec.ofNat 8 j, item := BitVec.ofNat 8 k }
        seq := { op := .cleanup, step := 1, item := 0 }, wait := .idle } := by
    rw [writeAt_fail bytes hr ha hok, starts (by simpa using hc), ← State.emit_lastRefresh (.busWrite bytes) s,
      ← State.emit_lastRefreshValid (.busWrite bytes) s]
  rcases hi with ⟨rfl, rfl, rfl⟩ | ⟨rfl, rfl, rfl⟩ | ⟨rfl, hk, data, rfl⟩ | ⟨rfl, rfl, rfl⟩ | ⟨rfl, rfl, rfl⟩
  · exact plain (w := .selPrimary) (by decide) (by rw [hc]; rfl)
  · exact plain (w := .selSecondary) (by decide) (by rw [hc]; rfl)
  · rcases hk with rfl | rfl
    · have ha : actionAt s.seq = some (.wire .dataPrimary) := by rw [hc]; rfl
      rw [exec_layerData ha (.inl rfl)]
      exact plain (by decide) ha
    · have ha : actionAt s.seq = some (.wire .dataSecondary) := by rw [hc]; rfl
      rw [exec_layerData ha (.inr rfl)]
      exact plain (by decide) ha
  · exact plain (w := .powerOnDisplay) (by decide) (by rw [hc]; rfl)
  · have hno : ¬ s.answer.ok = true := by simp [hok]
    rw [exec_refresh_at (by rw [hc]; rfl), State.settle, if_neg hno, starts (by simpa using hc)]
    rfl

/-- Settles O45: DEEP_SLEEP is the first item of step 1 in both shutdowns. -/
theorem deepSleepWritesOrIsNoted : Obligations.DeepSleepWritesOrIsNoted := by
  intro s hj hk
  have item (ho : s.seq.op = .powerOff ∨ s.seq.op = .cleanup) : actionAt s.seq = some (.wire .deepSleep) ∧
      nextItem s.seq = some { op := s.seq.op, step := 1, item := 1 } := by
    rcases ho with ho | ho <;> rw [cursor_eq ho hj hk] <;> exact ⟨rfl, rfl⟩
  refine ⟨fun ho hok => ?_, fun ho hok => ?_, fun ho hok => ?_⟩
  · exact writeAt_ok _ (by decide) (item ho).1 (item ho).2 hok
  · refine (writeAt_fail _ (by decide) (item (.inl ho)).1 hok).trans (congrArg _ ?_)
    rw [failItem_powerOff_first _ (by simpa using ho) (by simpa using hj), State.emit_error, State.emit_seq, hk]
    rfl
  · refine (writeAt_fail _ (by decide) (item (.inr ho)).1 hok).trans (congrArg _ ?_)
    exact failItem_cleanup_first _ (by simpa using ho) (by simpa using hj)

/-- The positions of a wire item in the step tables (R95, R97, R101, R104). -/
def WireItem.positions : WireItem → List Cursor
  | .softReset => [⟨.powerOn, 3, 0⟩]
  | .tempComp => [⟨.powerOn, 4, 0⟩]
  | .activate => [⟨.powerOn, 5, 0⟩]
  | .panelSettings => [⟨.powerOn, 6, 0⟩]
  | .deepSleep => [⟨.powerOff, 1, 0⟩, ⟨.cleanup, 1, 0⟩]
  | .selPrimary => [⟨.sendImage, 2, 0⟩]
  | .dataPrimary => [⟨.sendImage, 2, 4⟩]
  | .selSecondary => [⟨.sendImage, 2, 6⟩]
  | .dataSecondary => [⟨.sendImage, 2, 10⟩]
  | .powerOnDisplay => [⟨.sendImage, 4, 0⟩]
  | .refresh => [⟨.sendImage, 5, 0⟩]

/-- What a wire item's position is, for any action. -/
def Action.standsAt (c : Cursor) : Action → Bool
  | .wire w => w.positions.contains c
  | _ => true

theorem mem_positions {c : Cursor} {w : WireItem} (h : actionAt c = some (.wire w)) : c ∈ w.positions := by
  have : (Action.wire w).standsAt c = true := of_scripts (Q := fun c a => a.standsAt c = true) (by decide) h
  simpa [Action.standsAt] using this

theorem writeAt_fault {s : State} {w : WireItem} (bytes : List Byte) (h : s.seq ∉ w.positions) :
    s.writeAt w bytes = .fault .wireCommandOffItem := by
  have hno : ¬ s.atWireItem w = true := fun hat => h (mem_positions (by simpa [State.atWireItem] using hat))
  rw [State.writeAt, if_neg hno]

/-- Settles O46: a write at a cursor that is no position of its item is the fault. -/
theorem wireCommandsStopOffTheirItems : Obligations.WireCommandsStopOffTheirItems := by
  intro s
  have fault {w : WireItem} {bytes : List Byte} (h : ∀ c ∈ w.positions, s.seq ≠ c) :
      s.writeAt w bytes = .fault .wireCommandOffItem := writeAt_fault bytes fun hm => h _ hm rfl
  refine ⟨fun h => ?_, fun h c => ?_, fun h => ⟨?_, ?_⟩, fun h => ?_, fun h1 h2 => ?_, fun h => ?_, fun h => ?_, fun h => ?_,
    fun h => ?_, fun h1 h2 d => ?_⟩
  · exact fault (w := .softReset) (by simpa [WireItem.positions] using h)
  · exact fault (w := .tempComp) (by simpa [WireItem.positions] using h)
  · exact fault (w := .activate) (by simpa [WireItem.positions] using h)
  · exact fault (w := .activate) (by simpa [WireItem.positions] using h)
  · exact fault (w := .panelSettings) (by simpa [WireItem.positions] using h)
  · exact fault (w := .deepSleep) (by simpa [WireItem.positions] using ⟨h1, h2⟩)
  · exact fault (w := .selPrimary) (by simpa [WireItem.positions] using h)
  · exact fault (w := .selSecondary) (by simpa [WireItem.positions] using h)
  · exact fault (w := .powerOnDisplay) (by simpa [WireItem.positions] using h)
  · exact fault (w := .refresh) (by simpa [WireItem.positions] using h)
  · show execLayerData d s = _
    unfold execLayerData
    split
    · exact fault (w := .dataPrimary) (by simpa [WireItem.positions] using h1)
    · exact fault (w := .dataSecondary) (by simpa [WireItem.positions] using h2)

end Sys2Proof.Machine
end

section
/-! PROOFS. Every operation ends (20_memory.md R48, R60): each move of the controller lowers a measure of the items and polls that are
left, and each read of ENCODE the pixels that are left. Then what an operation's moves keep of LAST_REFRESH. Settles O37 and O49. -/

namespace Sys2Proof.Machine

/-! ### What every move keeps -/

@[simp] theorem effect_inputs (a : Action) (s : State) : (a.effect s).inputs = s.inputs := by cases a <;> rfl
@[simp] theorem effect_hazard (a : Action) (s : State) : (a.effect s).hazard = s.hazard := by cases a <;> rfl
@[simp] theorem issue_inputs (a : Action) (e : Event) (s : State) : (s.issue a e).inputs = s.inputs := by
  unfold State.issue; split <;> simp
@[simp] theorem issue_hazard (a : Action) (e : Event) (s : State) : (s.issue a e).hazard = s.hazard := by
  unfold State.issue; split <;> simp

theorem encodeMove_inputs (s : State) : s.encodeMove.inputs = s.inputs ∧ s.encodeMove.hazard = s.hazard := by
  unfold State.encodeMove
  split
  · unfold State.encodeGeometry; split <;> simp
  · unfold State.encodeDimensions; split <;> simp
  · unfold State.encodePixel
    split
    · unfold State.pixelOk State.storeGroup
      split_ifs <;> simp
    · simp [State.pixelFail]
  · exact ⟨rfl, rfl⟩
  · exact ⟨rfl, rfl⟩
  · exact ⟨rfl, rfl⟩

/-- No move takes an input, or sets or clears HAZARD (R46, R47). -/
theorem move_inputs (s : State) : s.move.inputs = s.inputs ∧ s.move.hazard = s.hazard := by
  have h := move_moved s
  generalize s.move = t at h
  cases h with
  | packed => exact encodeMove_inputs s
  | skipped => simp
  | ran _ _ _ _ h => cases h <;> simp
  | ended => simp

theorem move_busyTimeout (s : State) : s.move.busyTimeout = s.busyTimeout := congrArg HostSide.busyTimeout (move_hostSide s)

/-! ### The order of the cursor positions -/

/-- The cursor positions in the order an operation, and the CLEANUP that may follow it, goes through them. -/
def Cursor.rank (c : Cursor) : Nat := (if c.op = .cleanup then 400 else 0) + 20 * c.step + c.item

/-- The items an operation, and the CLEANUP that may follow it, can still come to. -/
def Op.itemsAhead : Op → List (Cursor × Action)
  | .powerOn => Op.powerOn.script ++ Op.cleanup.script
  | .sendImage => Op.sendImage.script ++ Op.cleanup.script
  | .powerOff => Op.powerOff.script
  | .cleanup => Op.cleanup.script
  | .none => []
  | .encode => []

/-- The busy waits from a position on. -/
def Cursor.waitsFrom (c : Cursor) : Nat := c.op.itemsAhead.countP fun p => p.2.waits && Nat.ble c.rank p.1.rank

/-- The busy waits after a position. -/
def Cursor.waitsAfter (c : Cursor) : Nat := c.op.itemsAhead.countP fun p => p.2.waits && Nat.blt c.rank p.1.rank

/-- A position comes after an item, and the busy waits from it on come after that item too. -/
def Cursor.before (c d : Cursor) : Bool := Nat.blt c.rank d.rank && Nat.ble d.waitsFrom c.waitsAfter

theorem before_iff {c d : Cursor} : c.before d = true ↔ c.rank < d.rank ∧ d.waitsFrom ≤ c.waitsAfter := by
  simp [Cursor.before]

theorem item_bounds {c : Cursor} {a : Action} (ha : actionAt c = some a) :
    c.rank < 600 ∧ c.waitsFrom ≤ 4 ∧ c.waitsFrom = c.waitsAfter + a.waits.toNat := by
  have h := of_scripts (Q := fun c a => (Nat.blt c.rank 600 && Nat.ble c.waitsFrom 4 &&
    c.waitsFrom == c.waitsAfter + a.waits.toNat) = true) (by decide) ha
  simpa [and_assoc] using h

/-- Where a move lands, if not at the item it was at or at rest, comes after that item. -/
theorem before_of_landing {c d : Cursor} {a : Action} (ha : actionAt c = some a)
    (h : nextItem c = some d ∨ ((c.op = .powerOn ∨ c.op = .sendImage) ∧ d = { op := .cleanup, step := 1, item := 0 }) ∨
      (c.step = 1 ∧ d = { op := c.op, step := 2, item := 0 } ∧ (c.op = .powerOff ∨ c.op = .cleanup))) :
    c.rank < d.rank ∧ d.waitsFrom ≤ c.waitsAfter := by
  have table := of_scripts (Q := fun c _ => ((nextItem c).all c.before &&
      (!(c.op == .powerOn || c.op == .sendImage) || c.before { op := .cleanup, step := 1, item := 0 }) &&
      (!(c.step == 1 && (c.op == .powerOff || c.op == .cleanup)) || c.before { op := c.op, step := 2, item := 0 })) = true)
    (by decide) ha
  simp only [Bool.and_eq_true] at table
  obtain ⟨⟨hnext, hclean⟩, hskip⟩ := table
  rw [← before_iff]
  rcases h with h | ⟨ho, rfl⟩ | ⟨h1, rfl, ho⟩
  · rw [h] at hnext; exact hnext
  · rcases ho with ho | ho <;> simpa [ho] using hclean
  · rcases ho with ho | ho <;> simpa [ho, h1] using hskip

/-! ### The polls that are left -/

/-- The moves a busy wait can still take where it stands, after `x` of `t` milliseconds (R94). -/
def State.waitLeft (s : State) : Nat :=
  match s.wait with
  | .idle => 2 * pollBound s.busyTimeout.toNat + 1
  | .poll t0 => 2 * pollBound (s.busyTimeout.toNat - (s.now - t0)) + 1
  | .sleep t0 => 2 * pollBound (s.busyTimeout.toNat - (s.now - t0))

/-- A busy wait began at t0, and sleeps only before its bound (R94). -/
def State.sleepsEarly (s : State) : Prop :=
  s.waitStart ≤ s.now ∧ ∀ t0, s.wait = .sleep t0 → s.now - t0 < s.busyTimeout.toNat

/-- What is left of the operation: the positions ahead, the busy waits ahead, and the wait at the cursor. -/
def State.movesLeft (s : State) : Nat :=
  (600 - s.seq.rank) + (2 * pollBound s.busyTimeout.toNat + 1) * s.seq.waitsAfter +
    (if (actionAt s.seq).any Action.waits then s.waitLeft else 0)

@[simp] theorem advance_wait (s : State) : s.advance.wait = .idle := by unfold State.advance; split <;> rfl

@[simp] theorem raiseHere_wait (e : ErrorCode) (s : State) : (s.raiseHere e).wait = .idle := by
  unfold State.raiseHere State.raise; split <;> rfl

@[simp] theorem failItem_wait (e : ErrorCode) (s : State) : (s.failItem e).wait = .idle := by
  have hafter (u : State) : u.advanceAfterFail.wait = .idle := by
    unfold State.advanceAfterFail
    split
    · rfl
    · exact advance_wait u
  unfold State.failItem
  split
  · exact raiseHere_wait e s
  · exact raiseHere_wait e s
  · exact hafter _
  · exact hafter _
  · rfl
  · exact raiseHere_wait e s

/-- A move at an item leaves it with no wait begun, or goes on with a wait: a poll then sleeps, a sleep then polls (R94). -/
theorem itemMove_wait {s t : State} {a : Action} (h : ItemMove s a t) :
    t.wait = .idle ∨ (a.waits = true ∧ t.seq = s.seq ∧ t.busyTimeout = s.busyTimeout ∧
      ((∀ t0, s.wait ≠ .sleep t0) ∧ t.wait = .sleep s.waitStart ∧ s.now ≤ t.now ∧
          t.now - s.waitStart < s.busyTimeout.toNat ∨
        ∃ t0, s.wait = .sleep t0 ∧ t.wait = .poll t0 ∧ s.now + 5 ≤ t.now)) := by
  cases h with
  | polled b hw hl hearly =>
    exact .inr ⟨rfl, by simp, by simp, .inl ⟨hw, rfl, by simp [Event.minMs], by simpa [Event.minMs] using hearly⟩⟩
  | slept b t0 hw => exact .inr ⟨rfl, by simp, by simp, .inr ⟨t0, hw, rfl, by simp [Event.minMs, Config.busyPollMs]⟩⟩
  | _ => exact .inl (by simp)

theorem pollBound_mono {x y : Nat} (h : x ≤ y) : pollBound x ≤ pollBound y := by unfold pollBound; omega

/-- A wait that goes on has fewer moves left. -/
theorem waitLeft_lt {s t : State} {a : Action} (h : ItemMove s a t) (hs : s.sleepsEarly) (ht : t.wait ≠ .idle) :
    t.seq = s.seq ∧ a.waits = true ∧ t.sleepsEarly ∧ t.waitLeft < s.waitLeft := by
  obtain ⟨hstart, hbound⟩ := hs
  obtain hidle | ⟨hw, hseq, hT, ⟨hawake, hsleep, hnow, hearly⟩ | ⟨t0, hasleep, hpoll, hnow⟩⟩ := itemMove_wait h
  · exact absurd hidle ht
  · have hstart' : t.waitStart = s.waitStart := by rw [State.waitStart, hsleep]
    refine ⟨hseq, hw, ⟨by omega, fun t0 h0 => ?_⟩, ?_⟩
    · rw [hsleep] at h0; cases h0; rw [hT]; exact hearly
    · have hpoll : s.waitLeft = 2 * pollBound (s.busyTimeout.toNat - (s.now - s.waitStart)) + 1 := by
        unfold State.waitLeft State.waitStart
        cases hs' : s.wait with
        | sleep t0 => exact absurd hs' (hawake t0)
        | idle => simp
        | poll t0 => rfl
      have := pollBound_mono (show s.busyTimeout.toNat - (t.now - s.waitStart) ≤ s.busyTimeout.toNat - (s.now - s.waitStart) by omega)
      rw [hpoll, State.waitLeft, hsleep, hT]
      dsimp only
      omega
  · have hearly := hbound t0 hasleep
    have hstart0 : s.waitStart = t0 := by rw [State.waitStart, hasleep]
    have hstart' : t.waitStart = t0 := by rw [State.waitStart, hpoll]
    refine ⟨hseq, hw, ⟨by omega, fun t1 h1 => (by rw [hpoll] at h1; cases h1)⟩, ?_⟩
    rw [State.waitLeft, State.waitLeft, hpoll, hasleep, hT]
    dsimp only
    unfold pollBound
    omega

theorem waitLeft_idle {s : State} (h : s.wait = .idle) : s.waitLeft = 2 * pollBound s.busyTimeout.toNat + 1 := by
  unfold State.waitLeft; rw [h]

theorem sleepsEarly_of_idle {s : State} (h : s.wait = .idle) : s.sleepsEarly :=
  ⟨by rw [State.waitStart, h], fun t0 h0 => by rw [h] at h0; cases h0⟩

/-- A state that has come to a later item, with no wait begun, has less left. -/
theorem movesLeft_lt_of_before {s t : State} {a b : Action} (ha : actionAt s.seq = some a) (hb : actionAt t.seq = some b)
    (hr : s.seq.rank < t.seq.rank) (hw : t.seq.waitsFrom ≤ s.seq.waitsAfter) (hT : t.busyTimeout = s.busyTimeout)
    (hidle : t.wait = .idle) : t.movesLeft < s.movesLeft := by
  obtain ⟨hs600, -, -⟩ := item_bounds ha
  obtain ⟨-, -, hfrom⟩ := item_bounds hb
  have hmul := Nat.mul_le_mul_left (2 * pollBound s.busyTimeout.toNat + 1) hw
  rw [hfrom, Nat.mul_add] at hmul
  unfold State.movesLeft
  rw [hb, waitLeft_idle hidle, hT]
  cases hwb : b.waits with
  | true => simp only [hwb, Bool.toNat_true, Nat.mul_one, Option.any_some, if_true] at hmul ⊢; omega
  | false => simp only [hwb, Bool.toNat_false, Nat.mul_zero, Option.any_some, Bool.false_eq_true, if_false] at hmul ⊢; omega

/-- A move that ends no wait at the cursor has ended the operation, or come to a later item. -/
theorem landing_before {s t : State} {a : Action} (h : Landing s a t) (ha : actionAt s.seq = some a) (hw : t.wait = .idle) :
    t.seq = noOperation ∨ (s.seq.rank < t.seq.rank ∧ t.seq.waitsFrom ≤ s.seq.waitsAfter) := by
  cases h with
  | stays _ _ _ _ hwait => exact absurd hw hwait
  | next c hn _ hseq => exact .inr (hseq ▸ before_of_landing ha (.inl hn))
  | closes _ _ hseq => exact .inl hseq
  | stops _ _ _ hseq => exact .inl hseq
  | cleansUp ho hseq => exact .inr (hseq ▸ before_of_landing ha (.inr (.inl ⟨ho, rfl⟩)))
  | skipsWait ho h1 hseq => exact .inr (hseq ▸ before_of_landing ha (.inr (.inr ⟨h1, rfl, ho⟩)))

/-! ### The end of the controller's operations -/

/-- A move at an item rests, or leaves less to do. -/
theorem move_movesLeft {s : State} (h : s.onItem) (hs : s.sleepsEarly) :
    s.move.atRest ∨ (s.move.onItem ∧ s.move.sleepsEarly ∧ s.move.movesLeft < s.movesLeft) := by
  obtain ⟨a, ha⟩ := Option.isSome_iff_exists.1 h.2
  refine (move_onItem h).symm.imp_right fun hitem => ⟨hitem, ?_⟩
  obtain ⟨b, hb⟩ := Option.isSome_iff_exists.1 hitem.2
  have hT := move_busyTimeout s
  have hm := move_moved s
  generalize s.move = t at *
  have later (hl : Landing s a t) (hidle : t.wait = .idle) : t.sleepsEarly ∧ t.movesLeft < s.movesLeft := by
    obtain hnone | ⟨hr, hw⟩ := landing_before hl ha hidle
    · rw [hnone] at hb; cases hb
    · exact ⟨sleepsEarly_of_idle hidle, movesLeft_lt_of_before ha hb hr hw hT hidle⟩
  cases hm with
  | packed ho => exact absurd ho (op_ne_of_action ha).2
  | skipped a' ha' hc _ => exact later (skipped_landing ha hc) (by simp)
  | ended _ hn => rw [hn] at ha; cases ha
  | ran a' _ ha' _ hi =>
    obtain rfl : a = a' := Option.some.inj (ha.symm.trans ha')
    by_cases hidle : t.wait = .idle
    · exact later (itemMove_landing hi ha) hidle
    · obtain ⟨hseq, hw, hearly, hlt⟩ := waitLeft_lt hi hs hidle
      refine ⟨hearly, ?_⟩
      unfold State.movesLeft
      rw [hseq, ha, hT, Option.any_some, hw, if_pos rfl, if_pos rfl]
      omega

/-- The controller's operation ends within the moves it has left. -/
theorem run_of_onItem (n : Nat) {s : State} (hi : s.inputs = []) (h : s.onItem) (hs : s.sleepsEarly)
    (hn : s.movesLeft < n) : (State.run n s).atRest := by
  induction n generalizing s with
  | zero => omega
  | succ n ih =>
    rw [run_succ n h.1 hi]
    obtain hrest | ⟨hitem, hearly, hlt⟩ := move_movesLeft h hs
    · rw [run_of_notBusy n hrest.1]; exact hrest
    · exact ih ((move_inputs s).1.trans hi) hitem hearly (by omega)

/-- The bound is enough for the positions and the four busy waits. -/
theorem movesLeft_lt_moveBound {s : State} {a : Action} (ha : actionAt s.seq = some a) (hw : s.wait = .idle) :
    s.movesLeft < s.moveBound := by
  obtain ⟨-, h4, hfrom⟩ := item_bounds ha
  have hmul := Nat.mul_le_mul_left (2 * pollBound s.busyTimeout.toNat + 1) h4
  rw [hfrom, Nat.mul_add] at hmul
  unfold State.movesLeft State.moveBound
  rw [ha, waitLeft_idle hw, Option.any_some]
  have hP : pollBound s.busyTimeout.toNat ≤ s.busyTimeout.toNat / Config.busyPollMs + 1 := by
    unfold pollBound Config.busyPollMs; omega
  cases hwa : a.waits with
  | true => simp only [hwa, Bool.toNat_true, Nat.mul_one, if_true] at hmul ⊢; omega
  | false => simp only [hwa, Bool.toNat_false, Nat.mul_zero, Bool.false_eq_true, if_false] at hmul ⊢; omega

/-! ### The end of ENCODE -/

/-- An invalid geometry ends ENCODE at its first move (R78, R80). -/
theorem run_geometry_fails (n : Nat) {s : State} (hi : s.inputs = [])
    (hg : geometryValid s.encWidth.toNat s.encHeight.toNat = false) :
    State.run (n + 1) (s.acceptCommand .encode 1) = { s.completed with
      frameValid := false, error := { code := .geometryInvalid, phase := .encode, step := 1, item := 0 } } := by
  have hno : ¬ geometryValid s.encWidth.toNat s.encHeight.toNat = true := by simp [hg]
  have h1 : (s.acceptCommand .encode 1).move =
      State.raise .geometryInvalid .encode 1 0 { s.acceptCommand .encode 1 with frameValid := false } := if_neg hno
  rw [run_succ (s := s.acceptCommand .encode 1) n rfl hi, h1, raise_encode, run_of_notBusy n rfl]
  rfl

/-- A source of another size ends ENCODE at its second move (R79). -/
theorem run_dimensions_fail (n : Nat) {s : State} (hi : s.inputs = [])
    (hg : geometryValid s.encWidth.toNat s.encHeight.toNat = true)
    (hm : ¬ (s.srcWidth = s.encWidth.toNat ∧ s.srcHeight = s.encHeight.toNat)) :
    State.run (n + 2) (s.acceptCommand .encode 1) = { s.completed with
      frameValid := false, error := { code := .dimensionMismatch, phase := .encode, step := 2, item := 0 } } := by
  have h1 : (s.acceptCommand .encode 1).move = s.geometryPassed := if_pos hg
  have h2 : s.geometryPassed.move = s.geometryPassed.raise .dimensionMismatch .encode 2 0 := if_neg hm
  rw [run_succ (s := s.acceptCommand .encode 1) _ rfl hi, h1, run_succ (s := s.geometryPassed) n rfl hi, h2,
    raise_encode, run_of_notBusy n rfl]
  rfl

/-- Settles O19: the first two moves of ENCODE are its checks. -/
theorem encodeChecksGeometryThenDimensions : Obligations.EncodeChecksGeometryThenDimensions := by
  intro s hb hi
  show (_ → Host.Outcome.next (s.hostCommand .encode) = _) ∧ (_ → _ → Host.Outcome.next (s.hostCommand .encode) = _)
  rw [hostCommand_of_idle _ hb]
  exact ⟨fun hg => congrArg _ (run_geometry_fails _ hi hg),
    fun hg hm => congrArg _ (run_dimensions_fail _ hi hg (by rwa [not_and_or]))⟩

/-- A read goes to the next pixel, or its failure ends ENCODE (R81, R86). -/
theorem AtPixel.move_or_rest {k : Nat} {s : State} (h : AtPixel k s) : nextPixel k s s.move ∨ s.move.atRest := by
  have hmove : s.move = s.encodePixel := by rw [move_of_encode h.seq]; simp [State.encodeMove, h.seq]
  rw [hmove, State.encodePixel]
  split
  · have hat : AtPixel k (s.emit (.pixRead s.pixel.x s.pixel.y)) := by
      obtain ⟨hb, hi, hseq, hw, hy, hg, hn, hk⟩ := h
      constructor <;> simpa
    exact .inl (by simpa [nextPixel] using pixelOk_nextPixel hat _)
  · exact .inr (raise_encode_atRest ..)

theorem run_of_pixelsRead_atRest (n : Nat) {s : State} (h : PixelsRead s) : (State.run (n + 2) s).atRest := by
  have h4 : s.move = s.encodeSecondary := by simp [move_of_encode h.seq, State.encodeMove, h.seq]
  have h5 : s.encodeSecondary.move = s.encodeSecondary.encodeCommit := rfl
  rw [run_succ _ h.busy h.inputs, h4, run_succ _ (show s.encodeSecondary.busy = true from h.busy) h.inputs, h5,
    run_of_notBusy _ rfl]
  exact ⟨rfl, rfl⟩

/-- ENCODE ends within the pixels it has left. -/
theorem run_of_atPixel_atRest (n : Nat) {k : Nat} {s : State} (h : AtPixel k s)
    (hn : s.encWidth.toNat * s.encHeight.toNat + 2 ≤ k + n) : (State.run n s).atRest := by
  induction n generalizing k s with
  | zero => have := h.lt_pixels; omega
  | succ n ih =>
    have hW : s.move.encWidth = s.encWidth := congrArg HostSide.encWidth (move_hostSide s)
    have hH : s.move.encHeight = s.encHeight := congrArg HostSide.encHeight (move_hostSide s)
    rw [run_succ n h.busy h.inputs]
    obtain (hat | ⟨hlast, hread⟩) | hrest := h.move_or_rest
    · exact ih hat (by rw [hW, hH]; omega)
    · obtain ⟨m, rfl⟩ : ∃ m, n = m + 2 := ⟨n - 2, by omega⟩
      exact run_of_pixelsRead_atRest m hread
    · rw [run_of_notBusy n hrest.1]; exact hrest

/-! ### The end of a host command -/

/-- An accepted host command runs to its end when no input lands meanwhile (R48, R60). -/
theorem run_accepted_atRest {op : Op} (ho : op.isHost) {s : State} (hi : s.inputs = []) :
    (State.run s.moveBound (s.acceptCommand op op.firstStep)).atRest := by
  have controller {c : Cursor} {a : Action} (hc : (s.acceptCommand op op.firstStep).seq = c) (ha : actionAt c = some a) :
      (State.run s.moveBound (s.acceptCommand op op.firstStep)).atRest := by
    subst hc
    exact run_of_onItem _ hi ⟨rfl, by rw [ha]; rfl⟩ (sleepsEarly_of_idle rfl)
      (movesLeft_lt_moveBound (s := s.acceptCommand op op.firstStep) ha rfl)
  obtain rfl | rfl | rfl | rfl := ho
  · obtain ⟨m, hm⟩ : ∃ m, s.moveBound = m + 2 := ⟨s.moveBound - 2, by unfold State.moveBound; omega⟩
    cases hg : geometryValid s.encWidth.toNat s.encHeight.toNat with
    | false => rw [hm]; exact run_geometry_fails (m + 1) hi hg ▸ ⟨rfl, rfl⟩
    | true =>
      by_cases hd : s.srcWidth = s.encWidth.toNat ∧ s.srcHeight = s.encHeight.toNat
      · obtain ⟨n, hn⟩ := moveBound_of_geometryValid hg
        rw [hn]
        refine run_accepted _ hi hg hd.1 hd.2 ▸ run_of_atPixel_atRest _ (atPixel_readsBegin hi hg) ?_
        show s.encWidth.toNat * s.encHeight.toNat + 2 ≤ _
        omega
      · rw [hm]; exact run_dimensions_fail m hi hg hd ▸ ⟨rfl, rfl⟩
  · exact controller rfl rfl
  · exact controller rfl rfl
  · exact controller rfl rfl

theorem run_hazard (n : Nat) (s : State) : (State.run n s).hazard = s.hazard := by
  refine run_induction (P := fun u => u.hazard = s.hazard) (fun u h => ?_) (fun u _ h => (move_inputs u).2.trans h) n rfl
  unfold State.tick
  split <;> exact h

/-- Settles O37: an accepted command rests within the bound, and no move sets HAZARD. -/
theorem everyOperationEnds : Obligations.EveryOperationEnds := by
  intro s i hc hb hi
  obtain ⟨op, ho, hx⟩ := exec_host hc
  have hrun : s.hostCommand op = State.run s.moveBound (s.acceptCommand op op.firstStep) := if_neg (by simp [hb])
  obtain ⟨hbusy, hseq⟩ := run_accepted_atRest ho hi
  exact ⟨_, hx s, by rw [hrun]; exact hbusy, by rw [hrun]; exact hseq, by rw [hrun, run_hazard]; rfl⟩

/-! ### LAST_REFRESH -/

/-- The moves of an operation other than SEND_IMAGE leave LAST_REFRESH (R33, R36). -/
theorem run_refresh (n : Nat) {s : State} (ho : s.seq.op ≠ .sendImage) :
    (State.run n s).lastRefresh = s.lastRefresh ∧ (State.run n s).lastRefreshValid = s.lastRefreshValid := by
  refine (run_induction (P := fun u => u.seq.op ≠ .sendImage ∧ u.lastRefresh = s.lastRefresh ∧
    u.lastRefreshValid = s.lastRefreshValid) (fun u h => ?_) (fun u _ ⟨hu, h1, h2⟩ => ?_) n ⟨ho, rfl, rfl⟩).2
  · unfold State.tick
    split <;> exact h
  · obtain ⟨h3, h4⟩ := moved_refresh (move_moved u) (fun hr => hu (by rw [hr]; rfl))
    refine ⟨?_, h3.trans h1, h4.trans h2⟩
    by_cases he : u.seq.op = .encode
    · rcases (move_packing (.inl he)).1 with h | h <;> rw [h] <;> decide
    · rcases move_op he with h | h | h <;> rw [h]
      · exact hu
      · decide
      · decide

theorem wireWrite_refresh {w : WireItem} (hw : w ≠ .refresh) (bytes : List Byte) (s : State) :
    (s.wireWrite w bytes).lastRefresh = s.lastRefresh ∧ (s.wireWrite w bytes).lastRefreshValid = s.lastRefreshValid := by
  rw [State.wireWrite, if_neg hw, State.checkedEvent, State.settle]
  split <;> simp

/-- Settles O49: the moves of the other operations do not come to REFRESH, and the other wire commands do not stamp. -/
theorem onlyRefreshWritesLastRefresh : Obligations.OnlyRefreshWritesLastRefresh := by
  intro i s t h hsend hrefresh
  obtain ⟨op, -, -, hs, rfl⟩ | ⟨-, w, bytes, hw, -, rfl⟩ := exec_cases h
  · unfold State.hostCommand
    split
    · exact ⟨rfl, rfl⟩
    · exact run_refresh _ (s := s.acceptCommand op op.firstStep) (mt hs.1 hsend)
  · exact wireWrite_refresh (mt hw.1 hrefresh) bytes s

end Sys2Proof.Machine
end

section
/-! PROOFS. The rule for what holds of an operation of the controller with the entries it has made (`KeptByItems`), when no input lands
meanwhile. By it: the bound of the polls (42_panel_sequencer.md R94). Settles O38. -/

namespace Sys2Proof.Machine

/-! ### The rule -/

/-- A property of the entries made since `s` and the state, that every move at an item keeps. -/
structure KeptByItems (s : State) (P : List Entry → State → Prop) : Prop where
  /-- an item of CLEANUP that is skipped -/
  skipped : ∀ (es : List Entry) (u : State) (a : Action), u.hostSide = s.hostSide → actionAt u.seq = some a →
    u.seq.op = .cleanup → u.holdsFor a = false → P es u → P es u.advance
  tested : ∀ (es : List Entry) (u v : State) (k : Check), u.hostSide = s.hostSide → actionAt u.seq = some (.test k) →
    ItemMove u (.test k) v → P es u → P es v
  issued : ∀ (es : List Entry) (u v : State) (a : Action) (e : Event), u.hostSide = s.hostSide → actionAt u.seq = some a →
    (u.seq.op = .cleanup → u.holdsFor a = true) → ItemMove u a v → u.itemEvent a = some e → P es u →
    P (es ++ [u.entry e]) v

theorem newEntries_eq {s t : State} {es : List Entry} (h : t.trace = s.trace ++ es) : newEntries s t = es := by
  simp [newEntries, h]

theorem KeptByItems.move {s : State} {P : List Entry → State → Prop} (k : KeptByItems s P) {u : State}
    (hu : u.hostSide = s.hostSide) (hitem : u.onItem) (h : ∃ es, u.trace = s.trace ++ es ∧ P es u) :
    ∃ es, u.move.trace = s.trace ++ es ∧ P es u.move := by
  obtain ⟨es, htr, hP⟩ := h
  obtain ⟨a, ha⟩ := Option.isSome_iff_exists.1 hitem.2
  have hm := move_moved u
  generalize u.move = v at hm
  cases hm with
  | packed ho => exact absurd ho (op_ne_of_action ha).2
  | ended _ hn => rw [hn] at ha; cases ha
  | skipped b hb hc hn => exact ⟨es, by simpa using htr, k.skipped es u b hu hb hc hn hP⟩
  | ran b _ hb hh hi =>
    rcases itemMove_trace hi with ⟨⟨c, rfl⟩, ht⟩ | ⟨e, he, ht⟩
    · exact ⟨es, ht.trans htr, k.tested es u v c hu hb hi hP⟩
    · exact ⟨es ++ [u.entry e], by rw [ht, htr, List.append_assoc], k.issued es u v b e hu hb hh hi he hP⟩

/-- An accepted operation of the controller ends in a state at rest, where the property holds of its entries. -/
theorem KeptByItems.hostCommand {s : State} {P : List Entry → State → Prop} (k : KeptByItems s P) {op : Op}
    (ho : op = .powerOn ∨ op = .sendImage ∨ op = .powerOff) (hb : s.busy = false) (hi : s.inputs = [])
    (h0 : P [] (s.acceptCommand op op.firstStep)) :
    (s.hostCommand op).atRest ∧ (s.hostCommand op).trace = s.trace ++ newEntries s (s.hostCommand op) ∧
      P (newEntries s (s.hostCommand op)) (s.hostCommand op) := by
  have hrun : s.hostCommand op = State.run s.moveBound (s.acceptCommand op op.firstStep) := if_neg (by simp [hb])
  have hrest : (s.hostCommand op).atRest := hrun ▸ run_accepted_atRest (.inr ho) hi
  have hitem : (s.acceptCommand op op.firstStep).onItem := by rcases ho with rfl | rfl | rfl <;> exact ⟨rfl, rfl⟩
  have hinv := run_induction (P := fun u => (u.onItem ∨ u.atRest) ∧ u.inputs = [] ∧ u.hostSide = s.hostSide ∧
      ∃ es, u.trace = s.trace ++ es ∧ P es u)
    (fun u h => by rw [tick_of_noInputs h.2.1]; exact h)
    (fun u hbusy ⟨hpos, hin, hu, h⟩ => by
      have hon : u.onItem := hpos.resolve_right fun hr => by rw [hr.1] at hbusy; cases hbusy
      exact ⟨move_onItem hon, (move_inputs u).1.trans hin, (move_hostSide u).trans hu, k.move hu hon h⟩)
    s.moveBound (s := s.acceptCommand op op.firstStep) ⟨.inl hitem, hi, rfl, [], (List.append_nil _).symm, h0⟩
  obtain ⟨-, -, -, es, htr, hP⟩ := hrun ▸ hinv
  rw [newEntries_eq htr]
  exact ⟨hrest, htr, hP⟩

/-! ### The polls at a position -/

/-- The polls of the busy line at a cursor position. -/
def pollsAt (c : Cursor) (es : List Entry) : Nat := es.countP fun e => isGet e && decide (e.pos = c)

theorem pollsAt_concat (c : Cursor) (es : List Entry) (e : Entry) :
    pollsAt c (es ++ [e]) = pollsAt c es + (isGet e && decide (e.pos = c)).toNat := by
  unfold pollsAt
  rw [List.countP_append]
  cases h : isGet e && decide (e.pos = c) <;> simp [h]

theorem pollsAt_eq_zero {c : Cursor} {es : List Entry} (h : ∀ e ∈ es, e.pos ≠ c) : pollsAt c es = 0 := by
  unfold pollsAt
  rw [List.countP_eq_zero]
  intro e he
  simp [h e he]

/-- Only a busy wait polls, and not while it sleeps. -/
theorem wait_of_get {s : State} {a : Action} {e : Event} (he : s.itemEvent a = some e) (hg : isGet (s.entry e) = true) :
    (∃ b, a = .waitBusy b) ∧ ∀ t0, s.wait ≠ .sleep t0 := by
  cases a with
  | test c => cases he
  | waitBusy b =>
    refine ⟨⟨b, rfl⟩, fun t0 h0 => ?_⟩
    simp only [State.itemEvent, h0, Option.some.injEq] at he
    subst he
    cases hg
  | _ => cases he; cases hg

/-- A busy wait that does not sleep polls, and one that sleeps does not (R94). -/
theorem isGet_of_wait {s : State} {a : Action} {e : Event} (hw : a.waits = true) (he : s.itemEvent a = some e) :
    ((∀ t0, s.wait ≠ .sleep t0) → isGet (s.entry e) = true) ∧ (∀ t0, s.wait = .sleep t0 → isGet (s.entry e) = false) := by
  cases a with
  | waitBusy b =>
    refine ⟨fun hawake => ?_, fun t0 h0 => ?_⟩
    · rw [itemEvent_of_poll b hawake] at he; cases he; rfl
    · simp only [State.itemEvent, h0, Option.some.injEq] at he; subst he; rfl
  | _ => cases hw

/-- What the entries made so far, and the wait at the cursor, say of the polls (R94): each later poll of a wait follows a delay of
at least 5 ms, and starts before the bound. -/
structure PollsBounded (s : State) (es : List Entry) (u : State) : Prop where
  bound : ∀ c, pollsAt c es ≤ pollBound s.busyTimeout.toNat + 1
  past : u.seq = noOperation ∨ ∀ e ∈ es, e.pos.rank < u.seq.rank ∨ (e.pos = u.seq ∧ u.wait ≠ .idle)
  polling : ∀ t0, u.wait = .poll t0 → t0 ≤ u.now ∧ 5 * pollsAt u.seq es ≤ u.now - t0 ∧
    5 * (pollsAt u.seq es - 1) < s.busyTimeout.toNat
  sleeping : ∀ t0, u.wait = .sleep t0 → t0 ≤ u.now ∧ 5 * (pollsAt u.seq es - 1) ≤ u.now - t0 ∧
    u.now - t0 < s.busyTimeout.toNat

/-- Where no wait has begun, no poll has been made at the position. -/
theorem PollsBounded.fresh {s u : State} {es : List Entry} {a : Action} (h : PollsBounded s es u) (ha : actionAt u.seq = some a)
    (hw : u.wait = .idle) : pollsAt u.seq es = 0 := by
  refine pollsAt_eq_zero fun e he hpos => ?_
  rcases h.past with hn | hpast
  · rw [hn] at ha; cases ha
  · rcases hpast e he with hlt | ⟨-, hne⟩
    · rw [hpos] at hlt; exact Nat.lt_irrefl _ hlt
    · exact hne hw

/-- A move that begins or goes on with no wait keeps the bound, if its own entry is within it. -/
theorem PollsBounded.of_idle {s u v : State} {es fs : List Entry} {a : Action} (h : PollsBounded s es u)
    (ha : actionAt u.seq = some a) (hl : Landing u a v) (hw : v.wait = .idle)
    (hbound : ∀ c, pollsAt c fs ≤ pollBound s.busyTimeout.toNat + 1)
    (hfs : ∀ e ∈ fs, e ∈ es ∨ e.pos = u.seq) : PollsBounded s fs v := by
  refine ⟨hbound, ?_, fun t0 h0 => (by rw [hw] at h0; cases h0),
    fun t0 h0 => (by rw [hw] at h0; cases h0)⟩
  refine (landing_before hl ha hw).imp_right fun ⟨hr, _⟩ e he => .inl ?_
  rcases hfs e he with hmem | hpos
  · rcases h.past with hn | hpast
    · rw [hn] at ha; cases ha
    · rcases hpast e hmem with hlt | ⟨hpos, -⟩
      · exact hlt.trans hr
      · exact hpos ▸ hr
  · exact hpos ▸ hr

theorem keptByItems_pollsBounded (s : State) : KeptByItems s (PollsBounded s) := by
  refine ⟨fun es u a _ ha hc _ h => ?_, fun es u v k _ ha hi h => ?_, fun es u v a e hu ha hh hi he h => ?_⟩
  · exact h.of_idle ha (skipped_landing ha hc) (by simp) h.bound fun e he => .inl he
  · have hw : v.wait = .idle := by cases hi <;> simp
    exact h.of_idle ha (itemMove_landing hi ha) hw h.bound fun e he => .inl he
  · have hT : u.busyTimeout = s.busyTimeout := congrArg HostSide.busyTimeout hu
    have hpast : ∀ e ∈ es, e.pos.rank < u.seq.rank ∨ (e.pos = u.seq ∧ u.wait ≠ .idle) :=
      h.past.resolve_left fun hn => by rw [hn] at ha; cases ha
    have hstart : isGet (u.entry e) = true → u.waitStart ≤ u.now ∧ 5 * pollsAt u.seq es ≤ u.now - u.waitStart ∧
        pollsAt u.seq es ≤ pollBound s.busyTimeout.toNat := by
      intro hg
      cases hw : u.wait with
      | idle =>
        have h0 := h.fresh ha hw
        have ht0 : u.waitStart = u.now := by rw [State.waitStart, hw]
        omega
      | sleep t0 => exact absurd hw ((wait_of_get he hg).2 t0)
      | poll t0 =>
        obtain ⟨hle, hk, hlt⟩ := h.polling t0 hw
        have ht0 : u.waitStart = t0 := by rw [State.waitStart, hw]
        unfold pollBound
        omega
    have hbound (c : Cursor) : pollsAt c (es ++ [u.entry e]) ≤ pollBound s.busyTimeout.toNat + 1 := by
      have hc := h.bound c
      rw [pollsAt_concat]
      cases hg : isGet (u.entry e) with
      | false => simpa using hc
      | true =>
        by_cases hpos : u.seq = c
        · subst hpos
          have := (hstart hg).2.2
          simpa using this
        · simpa [hpos] using hc
    obtain hidle | ⟨hwaits, hseq, -, hgo⟩ := itemMove_wait hi
    · refine h.of_idle ha (itemMove_landing hi ha) hidle hbound fun e' he' => ?_
      rcases List.mem_append.1 he' with hm | hm
      · exact .inl hm
      · exact .inr (by rw [List.mem_singleton.1 hm]; rfl)
    · have hnew {w : Wait} (hv : v.wait = w) (hne : w ≠ .idle) : ∀ e' ∈ es ++ [u.entry e],
          e'.pos.rank < v.seq.rank ∨ (e'.pos = v.seq ∧ v.wait ≠ .idle) := by
        intro e' he'
        rw [hseq, hv]
        rcases List.mem_append.1 he' with hm | hm
        · exact (hpast e' hm).imp_right fun hp => ⟨hp.1, hne⟩
        · exact .inr ⟨by rw [List.mem_singleton.1 hm]; rfl, hne⟩
      rcases hgo with ⟨hawake, hsleep, hnow, hearly⟩ | ⟨t0, hasleep, hpoll, hnow⟩
      · have hg := (isGet_of_wait hwaits he).1 hawake
        obtain ⟨hle, hk, -⟩ := hstart hg
        have hk' : pollsAt v.seq (es ++ [u.entry e]) = pollsAt u.seq es + 1 := by
          rw [hseq, pollsAt_concat, hg]; simp
        refine ⟨hbound, .inr (hnew hsleep (by simp)), fun t0 h0 => (by rw [hsleep] at h0; cases h0), fun t0 h0 => ?_⟩
        rw [hsleep] at h0
        cases h0
        rw [hk', ← hT]
        omega
      · have hg := (isGet_of_wait hwaits he).2 t0 hasleep
        obtain ⟨hle, hk, hlt⟩ := h.sleeping t0 hasleep
        have hk' : pollsAt v.seq (es ++ [u.entry e]) = pollsAt u.seq es := by
          rw [hseq, pollsAt_concat, hg]; simp
        refine ⟨hbound, .inr (hnew hpoll (by simp)), fun t1 h1 => ?_, fun t1 h1 => (by rw [hpoll] at h1; cases h1)⟩
        rw [hpoll] at h1
        cases h1
        rw [hk']
        omega

/-- POWER_OFF polls at its busy wait alone, and no CLEANUP follows it (R101). -/
def PollsAtShutdown (es : List Entry) (u : State) : Prop :=
  (u.seq.op = .powerOff ∨ u.seq = noOperation) ∧ ∀ e ∈ es, isGet e = true → e.pos = shutdownWait .powerOff

theorem powerOff_of_landing {u v : State} {a : Action} (h : Landing u a v) (ho : u.seq.op = .powerOff) :
    v.seq.op = .powerOff ∨ v.seq = noOperation := by
  cases h with
  | stays _ hseq => exact .inl (hseq ▸ ho)
  | next c hn _ hseq => exact .inl (by rw [hseq, (nextItem_spec hn).2, ho])
  | closes _ _ hseq => exact .inr hseq
  | stops _ _ _ hseq => exact .inr hseq
  | cleansUp ho' => rw [ho] at ho'; simp at ho'
  | skipsWait _ _ hseq => exact .inl (by rw [hseq, ho])

theorem keptByItems_pollsAtShutdown (s : State) : KeptByItems s PollsAtShutdown := by
  have running {u : State} {a : Action} (ha : actionAt u.seq = some a) (h : u.seq.op = .powerOff ∨ u.seq = noOperation) :
      u.seq.op = .powerOff := h.resolve_right fun hn => by rw [hn] at ha; cases ha
  refine ⟨fun es u a _ ha hc _ ⟨hop, _⟩ => ?_, fun es u v k _ ha hi ⟨hop, hes⟩ => ?_,
    fun es u v a e _ ha _ hi he ⟨hop, hes⟩ => ?_⟩
  · rw [running ha hop] at hc; cases hc
  · exact ⟨powerOff_of_landing (itemMove_landing hi ha) (running ha hop), hes⟩
  · refine ⟨powerOff_of_landing (itemMove_landing hi ha) (running ha hop), fun e' he' hg => ?_⟩
    rcases List.mem_append.1 he' with hm | hm
    · exact hes e' hm hg
    · obtain rfl := List.mem_singleton.1 hm
      have table := of_script (op := .powerOff) (Q := fun c a => a.waits = true → c = shutdownWait .powerOff) (by decide)
        (running ha hop) ha
      obtain ⟨b, rfl⟩ := (wait_of_get he hg).1
      exact table rfl

theorem pollsBounded_accepted (s : State) (op : Op) : PollsBounded s [] (s.acceptCommand op op.firstStep) :=
  ⟨fun _ => Nat.zero_le _, .inr (by simp), fun t0 h0 => (by cases h0), fun t0 h0 => (by cases h0)⟩

theorem isGet_of_isPixRead {e : Entry} (h : isPixRead e = true) : isGet e = false := by
  obtain ⟨ev, o, t, c⟩ := e
  cases ev with
  | get => cases h
  | _ => rfl

/-- Settles O38: `PollsBounded` holds when the operation ends; ENCODE polls nothing. -/
theorem busyWaitPollsBounded : Obligations.BusyWaitPollsBounded := by
  intro s i hc hb hi
  obtain ⟨op, ho, hx⟩ := exec_host hc
  refine ⟨_, hx s, ?_, fun hoff => ?_⟩
  · rcases ho with rfl | ho
    · intro c
      have hnone := (newEntries_of_onlyReads (hostCommand_encode_onlyReads s)).2
      have : pollsAt c (newEntries s (s.hostCommand .encode)) = 0 :=
        List.countP_eq_zero.2 fun e he => by simp [isGet_of_isPixRead (hnone e he)]
      exact this.le.trans (Nat.zero_le _)
    · exact ((keptByItems_pollsBounded s).hostCommand ho hb hi (pollsBounded_accepted s op)).2.2.bound
  · subst hoff
    have hop : s.hostCommand op = s.hostCommand .powerOff := (Host.Outcome.next.inj (hx s)).symm
    have hoff : Op.powerOff = .powerOn ∨ Op.powerOff = .sendImage ∨ Op.powerOff = .powerOff := .inr (.inr rfl)
    have hbound := ((keptByItems_pollsBounded s).hostCommand hoff hb hi (pollsBounded_accepted s _)).2.2.bound
    obtain ⟨-, hpos⟩ := ((keptByItems_pollsAtShutdown s).hostCommand hoff hb hi ⟨.inl rfl, by simp⟩).2.2
    rw [hop]
    refine le_trans (List.countP_mono_left fun e he hg => ?_) (hbound (shutdownWait .powerOff))
    simp [hg, hpos e he hg]

end Sys2Proof.Machine
end

section
/-! PROOFS. What changes SESSION (42_panel_sequencer.md R106; 60_exceptions.md R127): the end of POWER_ON, of POWER_OFF and of CLEANUP,
and nothing else. Settles O50. -/

namespace Sys2Proof.Machine

/-- A move changes SESSION only past the last item of an operation (R106). -/
theorem moved_session {s t : State} (h : Moved s t) :
    t.session = s.session ∨ (∃ a, actionAt s.seq = some a ∧ nextItem s.seq = none) ∧
      t.session = s.seq.op.closingSession s.session := by
  have landed {a : Action} (ha : actionAt s.seq = some a) (hl : Landing s a t) : t.session = s.session ∨
      (∃ a, actionAt s.seq = some a ∧ nextItem s.seq = none) ∧ t.session = s.seq.op.closingSession s.session := by
    cases hl with
    | closes hn _ _ _ hs => exact .inr ⟨⟨a, ha, hn⟩, hs.trans (closing_session_eq s)⟩
    | stays _ _ _ hs | next _ _ _ _ _ hs | stops _ _ _ _ _ hs | cleansUp _ _ _ hs | skipsWait _ _ _ _ hs => exact .inl hs
  cases h with
  | packed ho => exact .inl (congrArg SessionSide.session (encodeMove_packing (.inl ho)).2.1)
  | ended => exact .inl rfl
  | skipped a ha hc _ => exact landed ha (skipped_landing ha hc)
  | ran a _ ha _ hi => exact landed ha (itemMove_landing hi ha)

/-- SESSION is set by a move of POWER_ON alone, and cleared by one of POWER_OFF or CLEANUP alone. -/
theorem move_session (s : State) : (s.session = false → s.move.session = true → s.seq.op = .powerOn) ∧
    (s.session = true → s.move.session = false → s.seq.op = .powerOff ∨ s.seq.op = .cleanup) := by
  have h := moved_session (move_moved s)
  refine ⟨fun h0 h1 => ?_, fun h0 h1 => ?_⟩
  · rcases h with h | ⟨-, h⟩
    · rw [h, h0] at h1; cases h1
    · rw [h, h0] at h1
      cases ho : s.seq.op <;> simp [ho, Op.closingSession] at h1 ⊢
  · rcases h with h | ⟨-, h⟩
    · rw [h, h0] at h1; cases h1
    · rw [h, h0] at h1
      cases ho : s.seq.op <;> simp [ho, Op.closingSession] at h1 ⊢

/-- The operation after any move. -/
theorem move_followsOp (s : State) : followsOp s.seq.op s.move.seq.op := by
  by_cases ho : s.seq.op = .encode
  · rcases (move_packing (.inl ho)).1 with h | h
    · exact .inl (h.trans ho.symm)
    · exact .inr (.inr h)
  · exact move_op ho

theorem tick_fields (s : State) : s.tick.session = s.session ∧ s.tick.trace = s.trace := by
  unfold State.tick
  split <;> exact ⟨rfl, rfl⟩

/-- A command other than POWER_ON does not set SESSION. -/
theorem hostCommand_session_not_set {op : Op} (ho : op ≠ .powerOn) {s : State} (h : s.session = false) :
    (s.hostCommand op).session = false := by
  unfold State.hostCommand
  split
  · exact h
  · refine (run_induction (P := fun u => u.seq.op ≠ .powerOn ∧ u.session = false) (fun u hu => ?_) (fun u _ hu => ?_) _
      (s := s.acceptCommand op op.firstStep) ⟨ho, h⟩).2
    · rw [tick_seq, (tick_fields u).1]; exact hu
    · refine ⟨?_, Bool.eq_false_iff.2 fun hs => hu.1 ((move_session u).1 hu.2 hs)⟩
      rcases move_followsOp u with hop | hop | hop <;> rw [hop]
      · exact hu.1
      · decide
      · decide

/-- In Active, POWER_ON stops at its first test (R96). -/
theorem hostCommand_powerOn_active {s : State} (h : s.session = true) : (s.hostCommand .powerOn).session = true := by
  unfold State.hostCommand
  split
  · exact h
  · refine (run_induction (P := fun u => (u.seq = { op := .powerOn, step := 0, item := 0 } ∨ u.seq = noOperation) ∧
      u.session = true) (fun u hu => ?_) (fun u _ ⟨hseq, hs⟩ => ?_) _ (s := s.acceptCommand .powerOn 0) ⟨.inl rfl, h⟩).2
    · rw [tick_seq, (tick_fields u).1]; exact hu
    · refine ⟨?_, ?_⟩
      · rcases hseq with hseq | hseq
        · have ha : actionAt u.seq = some (.test .sessionIdle) := by rw [hseq]; rfl
          have hfails : u.passes .sessionIdle = false := congrArg (!·) hs
          rw [move_test ha, hfails]
          exact .inr (by simp [State.require, State.raiseHere, State.raise, check_error_not_hardware])
        · exact .inr (by unfold State.move; rw [hseq]; rfl)
      · cases hm : u.move.session with
        | true => rfl
        | false => rcases (move_session u).2 hs hm with ho | ho <;> rcases hseq with hseq | hseq <;> simp [hseq, noOperation] at ho

/-- What SEND_IMAGE's moves say of SESSION and CLEANUP: the item of CLEANUP that is never skipped, its delay, stands in the trace
before its last steps. -/
structure SendImageSession (s u : State) : Prop where
  op : u.seq.op ≠ .powerOff
  trace : ∃ es, u.trace = s.trace ++ es
  past : u.seq.op = .cleanup → 6 ≤ u.seq.step → ∃ e ∈ newEntries s u, e.pos.op = .cleanup
  cleared : u.session = true ∨ ∃ e ∈ newEntries s u, e.pos.op = .cleanup

/-- The delay of CLEANUP's step 5 comes before its steps 6 and 7, and the last item is in step 7 (R104). -/
theorem cleanup_late {c : Cursor} {a : Action} (hc : c.op = .cleanup) (ha : actionAt c = some a) :
    (∀ d, nextItem c = some d → 6 ≤ d.step → 6 ≤ c.step ∨ a = .delay 150) ∧ (nextItem c = none → 6 ≤ c.step) := by
  have table := of_script (op := .cleanup) (Q := fun c a => ((nextItem c).all (fun d => !Nat.ble 6 d.step || Nat.ble 6 c.step ||
    a == .delay 150) && (!(nextItem c == none) || Nat.ble 6 c.step)) = true) (by decide) hc ha
  simp only [Bool.and_eq_true] at table
  refine ⟨fun d hd h6 => ?_, fun hn => ?_⟩
  · have h6' : Nat.ble 6 d.step = true := Nat.ble_eq_true_of_le h6
    simpa [hd, h6'] using table.1
  · simpa [hn] using table.2

theorem SendImageSession.move {s u : State} (h : SendImageSession s u) : SendImageSession s u.move := by
  obtain ⟨hop, ⟨es, htr⟩, hpast, hcleared⟩ := h
  have hsession := moved_session (move_moved u)
  have hfollow := move_followsOp u
  have hm := move_moved u
  generalize u.move = v at *
  obtain ⟨fs, hfs, hpos⟩ : ∃ fs, v.trace = u.trace ++ fs ∧ ∀ e ∈ fs, e.pos = u.seq := by
    rcases moved_trace hm with ht | ⟨e, -, ht⟩
    · exact ⟨[], by simpa using ht, by simp⟩
    · exact ⟨[u.entry e], ht, by simp⟩
  have htr' : v.trace = s.trace ++ (es ++ fs) := by rw [hfs, htr, List.append_assoc]
  rw [newEntries_eq htr] at hpast hcleared
  have later : (∃ e ∈ es, e.pos.op = .cleanup) → ∃ e ∈ es ++ fs, e.pos.op = .cleanup :=
    fun ⟨e, he, hc⟩ => ⟨e, List.mem_append_left _ he, hc⟩
  have landed {a : Action} (ha : actionAt u.seq = some a) (hl : Landing u a v) (hv : v.seq.op = .cleanup) (h6 : 6 ≤ v.seq.step)
      (hissued : a = .delay 150 → fs ≠ []) : ∃ e ∈ es ++ fs, e.pos.op = .cleanup := by
    cases hl with
    | stays _ hseq => exact later (hpast (hseq ▸ hv) (hseq ▸ h6))
    | closes _ _ hseq => rw [hseq] at hv; cases hv
    | stops _ _ _ hseq => rw [hseq] at hv; cases hv
    | cleansUp _ hseq => rw [hseq] at h6; simp at h6
    | skipsWait _ _ hseq => rw [hseq] at h6; simp at h6
    | next d hn _ hseq =>
      have hu : u.seq.op = .cleanup := by rw [← (nextItem_spec hn).2, ← hseq, hv]
      rcases (cleanup_late hu ha).1 d hn (hseq ▸ h6) with h6' | hdelay
      · exact later (hpast hu h6')
      · obtain ⟨e, he⟩ := List.exists_mem_of_ne_nil fs (hissued hdelay)
        exact ⟨e, List.mem_append_right _ he, by rw [hpos e he, hu]⟩
  refine ⟨?_, ⟨es ++ fs, htr'⟩, fun hv h6 => ?_, ?_⟩
  · rcases hfollow with ho | ho | ho <;> rw [ho]
    · exact hop
    · decide
    · decide
  · rw [newEntries_eq htr']
    cases hm with
    | packed ho =>
      rcases (encodeMove_packing (.inl ho)).1 with h | h <;> rw [h] at hv <;> cases hv
    | ended => cases hv
    | skipped a ha hc hn =>
      exact landed ha (skipped_landing ha hc) hv h6 (fun hd => by rw [hd] at hn; cases hn)
    | ran a _ ha hh hi =>
      refine landed ha (itemMove_landing hi ha) hv h6 (fun hd hnil => ?_)
      rcases itemMove_trace hi with ⟨⟨k, hk⟩, -⟩ | ⟨e, he, ht⟩
      · rw [hd] at hk; cases hk
      · rw [hnil, List.append_nil] at hfs
        rw [hfs] at ht
        simp at ht
  · rw [newEntries_eq htr']
    rcases hsession with hs | ⟨⟨a, ha, hn⟩, hs⟩
    · exact hcleared.imp (hs.trans) later
    · cases ho : u.seq.op with
      | powerOn => exact .inl (by rw [hs, ho]; rfl)
      | cleanup => exact .inr (later (hpast ho ((cleanup_late ho ha).2 hn)))
      | powerOff => exact absurd ho hop
      | none | encode | sendImage => 
        refine hcleared.imp (fun h => ?_) later
        rw [hs, ho]; exact h

theorem hostCommand_sendImage_session {s : State} (h : s.session = true) :
    (s.hostCommand .sendImage).session = true ∨ ∃ e ∈ newEntries s (s.hostCommand .sendImage), e.pos.op = .cleanup := by
  unfold State.hostCommand
  split
  · exact .inl h
  · refine (run_induction (P := SendImageSession s) (fun u hu => ?_) (fun u _ hu => hu.move) _
      (s := s.acceptCommand .sendImage 1) ⟨?_, ?_, ?_, ?_⟩).cleared
    · obtain ⟨h1, h2⟩ := tick_fields u
      obtain ⟨hop, htr, hpast, hcleared⟩ := hu
      have hnew : newEntries s u.tick = newEntries s u := by rw [newEntries, newEntries, h2]
      exact ⟨by rwa [tick_seq], by rwa [h2], by rwa [tick_seq, hnew], by rwa [h1, hnew]⟩
    · simp
    · exact ⟨[], by simp⟩
    · simp
    · exact .inl h

/-- An input that lands leaves SESSION (R127). -/
theorem takeInput_session {i : Input} {s t : State} (h : s.takeInput i = .next t) : t.session = s.session := by
  cases i with
  | read a n =>
    simp only [State.takeInput] at h
    split at h <;> cases h
    rfl
  | write a n v =>
    simp only [State.takeInput] at h
    split at h <;> cases h
    unfold State.hostWrite
    split
    · rfl
    · obtain ⟨_, _, _, _, _, _, _, hu⟩ := storeRegister_cases a v s
      rw [hu]
  | unitReset =>
    simp only [State.takeInput] at h
    split at h <;> cases h
    exact ((quiescent_iff s).1 ‹_›).2.1.symm
  | source w h' => cases h; rfl
  | elapse ms => cases h; rfl

/-- Settles O50: a move changes SESSION at the end of its operation (`move_session`); a command does it by the operations it runs. -/
theorem sessionChangesOnlyByTheController : Obligations.SessionChangesOnlyByTheController := by
  intro s t h
  have same (hs : t.session = s.session) : (s.session = false → t.session = true →
        s.seq.op = .powerOn ∨ s.fetch = .bytes .hostCommand (Sys2Proof.encode .powerOn)) ∧
      (s.session = true → t.session = false → s.seq.op = .powerOff ∨ s.seq.op = .cleanup ∨
        s.fetch = .bytes .hostCommand (Sys2Proof.encode .powerOff) ∨
        (s.fetch = .bytes .hostCommand (Sys2Proof.encode .sendImage) ∧ ∃ e ∈ newEntries s t, e.pos.op = .cleanup)) := by
    rw [hs]
    exact ⟨fun h0 h1 => (by rw [h0] at h1; cases h1), fun h0 h1 => (by rw [h0] at h1; cases h1)⟩
  obtain ⟨-, ⟨p, rest, v, i, hq, hdue, hp, hd, he⟩ | ⟨p, rest, -, -, rfl⟩ | ⟨p, rest, -, -, ht⟩ | ⟨-, hb, rfl⟩ | ⟨-, -, rfl⟩⟩ :=
    step_cases h
  · obtain ⟨-, hc, hbytes⟩ := decodedBytesAreTheEncoding _ _ _ hd
    have hfetch : s.fetch = .bytes .hostCommand (Sys2Proof.encode i) := by
      rw [State.fetch, if_pos hdue, hq, hbytes]
      show fetchInput p.input = _
      rw [hp]
      rfl
    cases i with
    | encode =>
      cases he
      exact same (congrArg SessionSide.session (hostCommand_encode_onlyReads (s.setInputs rest)).1)
    | powerOn =>
      cases he
      refine ⟨fun _ _ => .inr hfetch, fun h0 h1 => ?_⟩
      rw [hostCommand_powerOn_active (s := s.setInputs rest) h0] at h1
      cases h1
    | sendImage =>
      cases he
      refine ⟨fun h0 h1 => ?_, fun h0 h1 => ?_⟩
      · rw [hostCommand_session_not_set (op := .sendImage) (by decide) (s := s.setInputs rest) h0] at h1
        cases h1
      · rcases hostCommand_sendImage_session (s := s.setInputs rest) h0 with hs | he
        · rw [hs] at h1; cases h1
        · exact .inr (.inr (.inr ⟨hfetch, he⟩))
    | powerOff =>
      cases he
      refine ⟨fun h0 h1 => ?_, fun _ _ => .inr (.inr (.inl hfetch))⟩
      rw [hostCommand_session_not_set (op := .powerOff) (by decide) (s := s.setInputs rest) h0] at h1
      cases h1
    | _ => cases hc
  · refine same ?_
    unfold State.illegalCommand
    split
    · rfl
    · rfl
  · exact same (takeInput_session (s := s.setInputs rest) ht)
  · have hs := move_session s.tick
    rw [tick_seq, (tick_fields s).1] at hs
    exact ⟨fun h0 h1 => .inl (hs.1 h0 h1), fun h0 h1 => (hs.2 h0 h1).imp_right .inl⟩
  · exact same rfl

end Sys2Proof.Machine
end

section
/-! PROOFS. The shutdown sequence of POWER_OFF and CLEANUP (42_panel_sequencer.md R101 to R104): the events that are still to come at
each cursor position, the failures on record, and the lines released, kept by every move (`Shutdown`). Settles O35. -/

namespace Sys2Proof.Machine

/-! ### The items ahead -/

/-- The items of the operation from a position on. -/
def Cursor.ahead (c : Cursor) : List Action := (c.op.script.filter fun p => Nat.ble c.rank p.1.rank).map Prod.snd

theorem ahead_eq {c : Cursor} {a : Action} (ha : actionAt c = some a) :
    c.ahead = a :: (nextItem c).elim [] Cursor.ahead :=
  of_scripts (Q := fun c a => c.ahead = a :: (nextItem c).elim [] Cursor.ahead) (by decide) ha

/-- The operation is a shutdown. -/
abbrev Op.shutsDown (op : Op) : Prop := op = .powerOff ∨ op = .cleanup

/-- A fact of every item of the two shutdowns. -/
theorem of_shutdown {Q : Cursor → Action → Prop} (hQ : ∀ op ∈ [Op.powerOff, .cleanup], ∀ p ∈ op.script, Q p.1 p.2) {c : Cursor}
    {a : Action} (hc : c.op.shutsDown) (ha : actionAt c = some a) : Q c a := by
  rcases hc with hc | hc
  · exact of_script (hQ .powerOff (by decide)) hc ha
  · exact of_script (hQ .cleanup (by decide)) hc ha

/-- The events of a shutdown's item, by the lines held and the bus open; those of its busy wait are not counted (R101, R104). -/
def Action.shutdownEvents (n : LineNumbers) (held : Line → Bool) (isOpen : Bool) : Action → List Event
  | .setDir l d => whenHeld (held l) (.setDir (LineNumbers.of n l) d)
  | .set l v => whenHeld (held l) (.set (LineNumbers.of n l) v)
  | .setBestEffort l v => whenHeld (held l) (.set (LineNumbers.of n l) v)
  | .unexportLine l => whenHeld (held l) (.unexportLine (LineNumbers.of n l))
  | .busClose => whenHeld isOpen .busClose
  | .wire _ => whenHeld isOpen (.busWrite [0x02, 0x02])
  | .delay ms => [.delay ms]
  | .test _ => []
  | .exportLine _ => []
  | .busOpen => []
  | .busConfig => []
  | .waitBusy _ => []

/-- The events of the shutdown's items from a position on. -/
def eventsAhead (n : LineNumbers) (held : Line → Bool) (isOpen : Bool) (c : Cursor) : List Event :=
  c.ahead.flatMap (Action.shutdownEvents n held isOpen)

/-- All of CLEANUP lies ahead at its first item (R104). -/
theorem eventsAhead_cleanup (n : LineNumbers) (held : Line → Bool) (isOpen : Bool) :
    eventsAhead n held isOpen { op := .cleanup, step := 1, item := 0 } = cleanupEvents n held isOpen := by
  have hahead : Cursor.ahead { op := .cleanup, step := 1, item := 0 } =
      [.wire .deepSleep, .waitBusy true, .setDir .reset .input, .set .cs false, .set .dc false, .set .power false,
        .setBestEffort .busy false, .delay 150, .unexportLine .power, .unexportLine .reset, .unexportLine .cs,
        .unexportLine .dc, .unexportLine .busy, .busClose] := by decide
  rw [eventsAhead, hahead]
  simp [Action.shutdownEvents, cleanupEvents, LineNumbers.of]

theorem eq_waitBusy_of_waits {a : Action} (h : a.waits = true) : ∃ b, a = .waitBusy b := by
  cases a with
  | waitBusy b => exact ⟨b, rfl⟩
  | _ => cases h

/-- A move at a shutdown's item, unless its test stops it, stays at its wait or takes its item off those ahead, and a failed
DEEP_SLEEP its wait too. -/
theorem landing_ahead {u v : State} {a : Action} (h : Landing u a v) (ho : u.seq.op.shutsDown) (ha : actionAt u.seq = some a)
    (hgo : ∀ k, a = .test k → u.passes k = true) :
    (v.seq = u.seq ∧ a.waits = true) ∨ u.seq.ahead = a :: v.seq.ahead ∨
      u.seq.ahead = a :: .waitBusy true :: v.seq.ahead := by
  have hnext := ahead_eq ha
  cases h with
  | stays hw hseq => exact .inl ⟨hseq, hw⟩
  | next d hn _ hseq => rw [hn] at hnext; exact .inr (.inl (hseq ▸ hnext))
  | closes hn _ hseq => rw [hn] at hnext; exact .inr (.inl (hseq ▸ hnext))
  | stops k hk hfails hseq => rw [hgo k hk] at hfails; cases hfails
  | cleansUp ho' => rcases ho with ho | ho <;> rcases ho' with ho' | ho' <;> rw [ho] at ho' <;> cases ho'
  | skipsWait _ h1 hseq =>
    rw [hseq]
    exact .inr (of_shutdown (Q := fun c a => c.step = 1 →
      (c.ahead = a :: Cursor.ahead { op := c.op, step := 2, item := 0 } ∨
        c.ahead = a :: .waitBusy true :: Cursor.ahead { op := c.op, step := 2, item := 0 })) (by decide) ho ha h1)

/-- Then the events ahead are those of the item and those ahead of it. -/
theorem landing_eventsAhead {u v : State} {a : Action} (h : Landing u a v) (ho : u.seq.op.shutsDown)
    (ha : actionAt u.seq = some a) (hgo : ∀ k, a = .test k → u.passes k = true) (n : LineNumbers) (held : Line → Bool)
    (isOpen : Bool) :
    eventsAhead n held isOpen u.seq = a.shutdownEvents n held isOpen ++ eventsAhead n held isOpen v.seq := by
  rcases landing_ahead h ho ha hgo with ⟨hseq, hw⟩ | hahead | hahead
  · obtain ⟨b, rfl⟩ := eq_waitBusy_of_waits hw
    rw [hseq]
    rfl
  · rw [eventsAhead, hahead]; rfl
  · rw [eventsAhead, hahead]; rfl

/-- A shutdown takes no line and does not open the bus (R101, R104). -/
theorem shutdown_acquires_nothing {c : Cursor} {a : Action} (ho : c.op.shutsDown) (ha : actionAt c = some a) :
    (∀ l, a ≠ .exportLine l) ∧ a ≠ .busOpen := by
  have table := of_shutdown (Q := fun _ a => (∀ l ∈ allLines, a ≠ .exportLine l) ∧ a ≠ .busOpen) (by decide) ho ha
  exact ⟨fun l => table.1 l (mem_allLines l), table.2⟩

/-! ### What an item of a shutdown asks for -/

/-- The line an item acts on. -/
def Action.line? : Action → Option Line
  | .setDir l _ => some l
  | .set l _ => some l
  | .setBestEffort l _ => some l
  | .unexportLine l => some l
  | .exportLine l => some l
  | .test _ => none
  | .busOpen => none
  | .busConfig => none
  | .busClose => none
  | .delay _ => none
  | .wire _ => none
  | .waitBusy _ => none

/-- What an item of a shutdown acts on is held, or its bus is open. -/
def Action.finds (held : Line → Bool) (isOpen : Bool) (a : Action) : Bool :=
  match a with
  | .busClose => isOpen
  | .wire _ => isOpen
  | a => a.line?.all held

theorem shutdownEvents_congr {n : LineNumbers} {h1 h2 : Line → Bool} {o1 o2 : Bool} {a : Action}
    (hl : ∀ l, a.line? = some l → h1 l = h2 l) (ho : o1 = o2) : a.shutdownEvents n h1 o1 = a.shutdownEvents n h2 o2 := by
  subst ho
  cases a with
  | setDir l d | set l v | setBestEffort l v | unexportLine l => simp [Action.shutdownEvents, hl l rfl]
  | _ => rfl

/-- An item that finds nothing held has no event. -/
theorem shutdownEvents_of_missing {n : LineNumbers} {held : Line → Bool} {isOpen : Bool} {a : Action}
    (h : a.finds held isOpen = false) : a.shutdownEvents n held isOpen = [] := by
  cases a <;> simp_all [Action.finds, Action.line?, Action.shutdownEvents, whenHeld]

/-- An item of a shutdown, its busy wait apart, that finds what it needs held has its one event. -/
theorem shutdownEvents_of_found {s : State} {held : Line → Bool} {isOpen : Bool} {a : Action} {e : Event}
    (ho : s.seq.op.shutsDown) (ha : actionAt s.seq = some a) (hw : a.waits = false) (he : s.itemEvent a = some e)
    (h : a.finds held isOpen = true) : a.shutdownEvents s.params.lines held isOpen = [e] := by
  have hkind := of_shutdown (Q := fun _ a => (∀ l ∈ allLines, a ≠ .exportLine l) ∧ a ≠ .busOpen ∧ a ≠ .busConfig ∧
    (∀ w ∈ [WireItem.softReset, .tempComp, .activate, .panelSettings, .selPrimary, .dataPrimary, .selSecondary, .dataSecondary,
      .powerOnDisplay, .refresh], a ≠ .wire w)) (by decide) ho ha
  obtain ⟨hexp, hopen, hconf, hwire⟩ := hkind
  cases a with
  | test k => cases he
  | waitBusy b => cases hw
  | exportLine l => exact absurd rfl (hexp l (mem_allLines l))
  | busOpen => exact absurd rfl hopen
  | busConfig => exact absurd rfl hconf
  | wire w =>
    obtain rfl : w = .deepSleep := by
      by_contra hne
      refine hwire w ?_ rfl
      cases w <;> simp_all
    cases he
    exact if_pos h
  | setDir l d | set l v | setBestEffort l v | unexportLine l | busClose => cases he; exact if_pos h
  | delay ms => cases he; rfl

/-- What a shutdown counts on: CLEANUP on what is held (R104), POWER_OFF on everything (R101). -/
def State.countsHeld (s : State) : Line → Bool := if s.seq.op = .cleanup then s.exported.get else fun _ => true

/-- CLEANUP counts on the bus where it is open. -/
def State.countsOpen (s : State) : Bool := if s.seq.op = .cleanup then s.busOpen else true

/-- The events still to come at the cursor. -/
def State.eventsLeft (s : State) : List Event := eventsAhead s.params.lines s.countsHeld s.countsOpen s.seq

/-- The busy wait of a shutdown is one item, its position (R101, R104). -/
theorem shutdownWait_iff {c : Cursor} {a : Action} (ho : c.op.shutsDown) (ha : actionAt c = some a) :
    (c = shutdownWait c.op ↔ a.waits = true) ∧ (a.waits = true → a = .waitBusy true) := by
  refine of_shutdown (Q := fun c a => (c = shutdownWait c.op ↔ a.waits = true) ∧ (a.waits = true → a = .waitBusy true))
    (by decide) ho ha

theorem holdsFor_eq_finds {s : State} {a : Action} (hc : s.seq.op = .cleanup) (hw : a.waits = false)
    (h : (∀ l, a ≠ .exportLine l) ∧ a ≠ .busOpen) : s.holdsFor a = a.finds s.countsHeld s.countsOpen := by
  rw [State.countsHeld, State.countsOpen, if_pos hc, if_pos hc]
  cases a with
  | exportLine l => exact absurd rfl (h.1 l)
  | busOpen => exact absurd rfl h.2
  | waitBusy b => cases hw
  | _ => rfl

/-- In POWER_OFF every item finds what it counts on. -/
theorem finds_of_powerOff {s : State} (a : Action) (ho : s.seq.op = .powerOff) : a.finds s.countsHeld s.countsOpen = true := by
  have hno : ¬ s.seq.op = .cleanup := by simp [ho]
  rw [State.countsHeld, State.countsOpen, if_neg hno, if_neg hno]
  cases a <;> rfl

/-- The entry of a shutdown's item is the one its item has, or one of the busy wait, which is not counted. -/
theorem outsideWait_entry {s : State} {a : Action} {e : Event} (ho : s.seq.op.shutsDown) (ha : actionAt s.seq = some a)
    (hh : s.seq.op = .cleanup → s.holdsFor a = true) (he : s.itemEvent a = some e) :
    outsideWait s.seq.op [s.entry e] = a.shutdownEvents s.params.lines s.countsHeld s.countsOpen := by
  obtain ⟨hpos, -⟩ := shutdownWait_iff ho ha
  cases hw : a.waits with
  | true =>
    obtain ⟨b, rfl⟩ := eq_waitBusy_of_waits hw
    have hat : s.seq = shutdownWait s.seq.op := hpos.2 rfl
    simp [outsideWait, ← hat, Action.shutdownEvents]
  | false =>
    have hoff : s.seq ≠ shutdownWait s.seq.op := fun h => by rw [hpos.1 h] at hw; cases hw
    have hfound : a.finds s.countsHeld s.countsOpen = true := by
      rcases ho with ho | ho
      · exact finds_of_powerOff a ho
      · rw [← holdsFor_eq_finds ho hw (cleanup_acquires_nothing ho ha)]; exact hh ho
    rw [shutdownEvents_of_found ho ha hw he hfound]
    simp [outsideWait, hoff]

theorem itemMove_hostSide {s t : State} {a : Action} (h : ItemMove s a t) : t.hostSide = s.hostSide := by
  have heff (u : State) : (a.effect u).hostSide = u.hostSide := by cases a <;> rfl
  have hissue (e : Event) : (s.issue a e).hostSide = s.hostSide := by
    unfold State.issue
    split <;> simp [State.hostSide]
  cases h with
  | polled b hw hl hearly => exact emit_hostSide (.get (s.lineNumber .busy)) s
  | slept b t0 hw => exact emit_hostSide (.delay Config.busyPollMs) s
  | _ => simp [heff, hissue]

/-- Where a shutdown lands: at its own items, or at rest. -/
theorem landing_shutdown {u v : State} {a : Action} (h : Landing u a v) (ho : u.seq.op.shutsDown) :
    v.seq.op = u.seq.op ∨ v.seq = noOperation := by
  cases h with
  | stays _ hseq => exact .inl (by rw [hseq])
  | next c hn _ hseq => exact .inl (by rw [hseq, (nextItem_spec hn).2])
  | closes _ _ hseq => exact .inr hseq
  | stops _ _ _ hseq => exact .inr hseq
  | cleansUp ho' => rcases ho with ho | ho <;> rcases ho' with ho' | ho' <;> rw [ho] at ho' <;> cases ho'
  | skipsWait _ _ hseq => exact .inl (by rw [hseq])

/-- What CLEANUP releases is not asked for by a later item (R104). -/
theorem release_last {c : Cursor} {a : Action} (hc : c.op = .cleanup) (ha : actionAt c = some a) :
    (∀ l, a = .unexportLine l → c.step ≠ 1 ∧ ∀ b ∈ (nextItem c).elim [] Cursor.ahead, b.line? ≠ some l) ∧
      (a = .busClose → c.step ≠ 1 ∧ nextItem c = none) := by
  have table := of_script (op := .cleanup) (Q := fun c a => (∀ l ∈ allLines, a = .unexportLine l → c.step ≠ 1 ∧
    ∀ b ∈ (nextItem c).elim [] Cursor.ahead, b.line? ≠ some l) ∧ (a = .busClose → c.step ≠ 1 ∧ nextItem c = none))
    (by decide) hc ha
  exact ⟨fun l => table.1 l (mem_allLines l), table.2⟩

/-- Where a move lands that does not wait, nor skip a wait. -/
theorem landing_ahead_sub {u v : State} {a : Action} (h : Landing u a v) (hw : a.waits = false) (h1 : u.seq.step ≠ 1)
    (ho : u.seq.op.shutsDown) : v.seq = noOperation ∨ v.seq.ahead = (nextItem u.seq).elim [] Cursor.ahead := by
  cases h with
  | stays hw' => rw [hw] at hw'; cases hw'
  | next c hn _ hseq => exact .inr (by rw [hseq, hn]; rfl)
  | closes _ _ hseq => exact .inl hseq
  | stops _ _ _ hseq => exact .inl hseq
  | cleansUp ho' => rcases ho with ho | ho <;> rcases ho' with ho' | ho' <;> rw [ho] at ho' <;> cases ho'
  | skipsWait _ h1' => exact absurd h1' h1

/-- The handles after a move at a shutdown's item: a line may be released, and the bus closed. -/
theorem itemMove_releases {u v : State} {a : Action} (hi : ItemMove u a v) (hacq : (∀ l, a ≠ .exportLine l) ∧ a ≠ .busOpen) :
    (∀ l, v.exported.get l = u.exported.get l ∨ a = .unexportLine l ∧ v.exported.get l = false) ∧
      (v.busOpen = u.busOpen ∨ a = .busClose) := by
  have heffect : (∀ l, (a.effect u).exported.get l = u.exported.get l ∨ a = .unexportLine l ∧
      (a.effect u).exported.get l = false) ∧ ((a.effect u).busOpen = u.busOpen ∨ a = .busClose) := by
    cases a with
    | exportLine l => exact absurd rfl (hacq.1 l)
    | busOpen => exact absurd rfl hacq.2
    | unexportLine m =>
      refine ⟨fun l => ?_, .inl rfl⟩
      by_cases h : m = l
      · subst h; exact .inr ⟨rfl, by simp [Action.effect, Exported.get_put]⟩
      · exact .inl (by simp [Action.effect, Exported.get_put, h])
    | busClose => exact ⟨fun _ => .inl rfl, .inr rfl⟩
    | _ => exact ⟨fun _ => .inl rfl, .inl rfl⟩
  rcases itemMove_handles hi with ⟨h1, h2, -⟩ | ⟨h1, h2, -⟩
  · rw [h1, h2]; exact heffect
  · rw [h1, h2]; exact ⟨fun _ => .inl rfl, .inl rfl⟩

/-- What lies ahead counts on what is held, as before the move. -/
theorem eventsAhead_counts {u v : State} {a : Action} (hi : ItemMove u a v) (ho : u.seq.op.shutsDown)
    (ha : actionAt u.seq = some a) :
    eventsAhead u.params.lines u.countsHeld u.countsOpen v.seq = v.eventsLeft := by
  have hl := itemMove_landing hi ha
  have hp : v.params = u.params := congrArg HostSide.params (itemMove_hostSide hi)
  rcases landing_shutdown hl ho with hop | hnone
  swap
  · rw [State.eventsLeft, hnone]; rfl
  rw [State.eventsLeft, hp]
  rcases ho with ho | ho
  · have hu : ¬ u.seq.op = .cleanup := by simp [ho]
    have hv : ¬ v.seq.op = .cleanup := by simp [hop, ho]
    rw [State.countsHeld, State.countsOpen, State.countsHeld, State.countsOpen, if_neg hu, if_neg hu, if_neg hv, if_neg hv]
  · have hv : v.seq.op = .cleanup := hop.trans ho
    rw [State.countsHeld, State.countsOpen, State.countsHeld, State.countsOpen, if_pos ho, if_pos ho, if_pos hv, if_pos hv]
    obtain ⟨hunexport, hclose⟩ := release_last ho ha
    obtain ⟨hexported, hopen⟩ := itemMove_releases hi (cleanup_acquires_nothing ho ha)
    refine List.flatMap_congr fun b hb => shutdownEvents_congr (fun l hline => ?_) ?_
    · rcases hexported l with h | ⟨hal, -⟩
      · exact h.symm
      · obtain ⟨h1, hlast⟩ := hunexport l hal
        rcases landing_ahead_sub hl (by rw [hal]; rfl) h1 (.inr ho) with hn | hahead
        · rw [hn] at hv; cases hv
        · exact absurd hline (hlast b (hahead ▸ hb))
    · rcases hopen with h | hab
      · exact h.symm
      · obtain ⟨h1, hlast⟩ := hclose hab
        rcases landing_ahead_sub hl (by rw [hab]; rfl) h1 (.inr ho) with hn | hahead
        · rw [hn] at hv; cases hv
        · rw [hlast] at hahead; rw [hahead] at hb; cases hb

/-- The entry of a move, and the events left after it, are the events left before it. -/
theorem eventsLeft_issued {u v : State} {a : Action} {e : Event} (hi : ItemMove u a v) (ho : u.seq.op.shutsDown)
    (ha : actionAt u.seq = some a) (hh : u.seq.op = .cleanup → u.holdsFor a = true) (he : u.itemEvent a = some e) :
    outsideWait u.seq.op [u.entry e] ++ v.eventsLeft = u.eventsLeft := by
  rw [outsideWait_entry ho ha hh he, ← eventsAhead_counts hi ho ha]
  refine (landing_eventsAhead (itemMove_landing hi ha) ho ha (fun k hk => ?_) _ _ _).symm
  rw [hk] at he; cases he

/-- An item that CLEANUP skips has no event that counts. -/
theorem shutdownEvents_skipped {u : State} {a : Action} (hc : u.seq.op = .cleanup) (ha : actionAt u.seq = some a)
    (hn : u.holdsFor a = false) : a.shutdownEvents u.params.lines u.countsHeld u.countsOpen = [] := by
  cases hw : a.waits with
  | true => obtain ⟨b, rfl⟩ := eq_waitBusy_of_waits hw; rfl
  | false =>
    refine shutdownEvents_of_missing ?_
    rw [← holdsFor_eq_finds hc hw (cleanup_acquires_nothing hc ha)]; exact hn

/-- An advance past an item without events leaves the events left. -/
theorem eventsLeft_advance {u : State} {a : Action} (hl : Landing u a u.advance) (ho : u.seq.op.shutsDown)
    (ha : actionAt u.seq = some a) (hgo : ∀ k, a = .test k → u.passes k = true)
    (hnone : a.shutdownEvents u.params.lines u.countsHeld u.countsOpen = []) : u.advance.eventsLeft = u.eventsLeft := by
  have hahead := landing_eventsAhead hl ho ha hgo u.params.lines u.countsHeld u.countsOpen
  rw [hnone, List.nil_append] at hahead
  rw [State.eventsLeft, State.eventsLeft, hahead]
  rcases landing_shutdown hl ho with hop | hnone
  · simp [State.countsHeld, State.countsOpen, hop]
  · rw [hnone]; rfl

end Sys2Proof.Machine
end

section
/-! PROOFS. The failures on record in a shutdown (42_panel_sequencer.md R101 to R104), and the shutdown as one property that every move
keeps (`Shutdown`). Settles O35. -/

namespace Sys2Proof.Machine

/-! ### The record, entry by entry -/

theorem outsideWait_append (op : Op) (es fs : List Entry) :
    outsideWait op (es ++ fs) = outsideWait op es ++ outsideWait op fs := by simp [outsideWait]

/-- The last poll decides whether the busy wait has timed out (R94). -/
theorem waitTimedOut_concat (op : Op) (target : Bool) (es : List Entry) (e : Entry) :
    waitTimedOut op target (es ++ [e]) =
      if e.pos = shutdownWait op then decide (e.outcome = .okLevel (!target)) else waitTimedOut op target es := by
  unfold waitTimedOut
  rw [List.filter_append]
  by_cases h : e.pos = shutdownWait op
  · simp [h]
  · simp [h]

/-- Without an entry of the busy wait, it has not timed out. -/
theorem waitTimedOut_of_none {op : Op} {target : Bool} {es : List Entry} (h : ∀ e ∈ es, e.pos ≠ shutdownWait op) :
    waitTimedOut op target es = false := by
  have : es.filter (fun e => e.pos = shutdownWait op) = [] := by simpa using h
  unfold waitTimedOut
  rw [this]
  rfl

/-- The error that POWER_OFF notes at an item (R101). -/
def notedAt (code : ErrorCode) (c : Cursor) : ErrorReg :=
  { code := code, phase := .shutdown, step := BitVec.ofNat 8 c.step, item := BitVec.ofNat 8 c.item }

theorem notedError_of_timedOut {target : Bool} {es : List Entry} (h : waitTimedOut .powerOff target es = true) :
    notedError target es = notedAt .hardwareTimeout (shutdownWait .powerOff) := by
  rw [notedError, if_pos h]; rfl

theorem notedError_of_clean {target : Bool} {es : List Entry} (h : waitTimedOut .powerOff target es = false)
    (hn : es.any notedFail = false) : notedError target es = noError := by
  have hfind : es.find? notedFail = none := by simpa using hn
  rw [notedError, if_neg (by simp [h]), hfind]; rfl

/-- The first noted failure stands in ERROR. -/
theorem notedError_concat_noted {target : Bool} {es : List Entry} {e : Entry} (he : notedFail e = true)
    (hw : waitTimedOut .powerOff target (es ++ [e]) = waitTimedOut .powerOff target es) :
    notedError target (es ++ [e]) =
      if (notedError target es).code = .none then notedAt .hardwareIo e.pos else notedError target es := by
  unfold notedError
  rw [hw, List.find?_append]
  cases waitTimedOut .powerOff target es with
  | true => simp
  | false =>
    cases es.find? notedFail with
    | none => simp [he, notedAt]
    | some x => simp

theorem notedError_concat_other {target : Bool} {es : List Entry} {e : Entry} (he : notedFail e = false)
    (hw : waitTimedOut .powerOff target (es ++ [e]) = waitTimedOut .powerOff target es) :
    notedError target (es ++ [e]) = notedError target es := by
  unfold notedError
  rw [hw, List.find?_append]
  simp [he]

/-- What the events so far leave on record: POWER_OFF in ERROR, CLEANUP in CLEANUP_ERR (R101, R104). -/
def State.records (op : Op) (target : Bool) (es : List Entry) (s : State) : Prop :=
  (op = .powerOff → s.error = notedError target es) ∧ (op = .cleanup → s.cleanupErr = cleanupFailed target es)

/-- Nothing is on record. -/
def State.recordsNone (op : Op) (s : State) : Prop := (op = .powerOff → s.error = noError) ∧ (op = .cleanup → s.cleanupErr = false)

/-- A failure goes on record, and a failure in step 1 leads to step 2 (R101, R104). -/
structure RecordsFailure (code : ErrorCode) (s t : State) : Prop where
  powerOff : s.seq.op = .powerOff →
    (t.error = if s.error.code = .none then notedAt code s.seq else s.error) ∧ t.cleanupErr = s.cleanupErr
  cleanup : s.seq.op = .cleanup → t.cleanupErr = true ∧ t.error = s.error
  wait : t.wait = .idle
  second : s.seq.op.shutsDown → s.seq.step = 1 → t.seq.step = 2

@[simp] theorem advance_record (s : State) : s.advance.error = s.error ∧ s.advance.cleanupErr = s.cleanupErr := by
  have hclosing : s.closing.error = s.error ∧ s.closing.cleanupErr = s.cleanupErr := by
    unfold State.closing
    cases s.seq.op <;> exact ⟨rfl, rfl⟩
  unfold State.advance
  split
  · exact ⟨rfl, rfl⟩
  · exact hclosing

theorem advanceAfterFail_record (s : State) :
    s.advanceAfterFail.error = s.error ∧ s.advanceAfterFail.cleanupErr = s.cleanupErr := by
  unfold State.advanceAfterFail
  split
  · exact ⟨rfl, rfl⟩
  · exact advance_record s

theorem recordsFailure_of_failItem {s u : State} (code : ErrorCode) (hq : u.seq = s.seq)
    (he : u.error = s.error ∧ u.cleanupErr = s.cleanupErr) : RecordsFailure code s (u.failItem code) := by
  have hoff (ho : s.seq.op = .powerOff) : u.failItem code = (u.note code).advanceAfterFail := by
    unfold State.failItem; rw [hq, ho]
  have hclean (ho : s.seq.op = .cleanup) : u.failItem code = u.cleanupFail.advanceAfterFail := by
    unfold State.failItem; rw [hq, ho]
  refine ⟨fun ho => ?_, fun ho => ?_, failItem_wait code u, fun ho h1 => ?_⟩
  · have hrec := advanceAfterFail_record (u.note code)
    rw [hoff ho, hrec.1, hrec.2, ← he.1, ← he.2, ← hq]
    unfold State.note
    split <;> exact ⟨rfl, rfl⟩
  · have hrec := advanceAfterFail_record u.cleanupFail
    rw [hclean ho, hrec.1, hrec.2]
    exact ⟨rfl, he.1⟩
  · rcases ho with ho | ho
    · rw [hoff ho, advanceAfterFail_first (op := .powerOff) (by rw [note_seq, hq, ho]) (by rw [note_seq, hq, h1])]
    · rw [hclean ho, advanceAfterFail_first (s := u.cleanupFail) (op := .cleanup) (show u.seq.op = _ by rw [hq, ho])
        (show u.seq.step = 1 by rw [hq, h1])]

/-- In step 4 of a shutdown a failed event is ignored (R102). -/
theorem unchecked_step {c : Cursor} {a : Action} (ho : c.op.shutsDown) (ha : actionAt c = some a) :
    (c.step = 4 ↔ ∃ l v, a = .setBestEffort l v) ∧ (a.unchecked = true → c.step = 4 ∨ ∃ ms, a = .delay ms) := by
  have table := of_shutdown (Q := fun c a => (c.step = 4 ↔ a = .setBestEffort .busy false) ∧
    (a.unchecked = true → c.step = 4 ∨ a = .delay 150) ∧ (∀ l ∈ allLines, a ≠ .setBestEffort l true) ∧
    ∀ l ∈ [Line.power, .cs, .dc, .reset], a ≠ .setBestEffort l false) (by decide) ho ha
  obtain ⟨hiff, hun, htrue, hlines⟩ := table
  refine ⟨⟨fun h => ⟨_, _, hiff.1 h⟩, ?_⟩, fun h => (hun h).imp_right fun h => ⟨_, h⟩⟩
  rintro ⟨l, v, rfl⟩
  cases v with
  | true => exact absurd rfl (htrue l (mem_allLines l))
  | false =>
    cases l with
    | busy => exact hiff.2 rfl
    | power | cs | dc | reset => exact absurd rfl (hlines _ (by decide))

/-- What a move at a shutdown's item puts on record: nothing, or the failure of its event or of its busy wait. -/
theorem itemMove_records {u v : State} {a : Action} {e : Event} (hi : ItemMove u a v) (ho : u.seq.op.shutsDown)
    (ha : actionAt u.seq = some a) (he : u.itemEvent a = some e) :
    (v.error = u.error ∧ v.cleanupErr = u.cleanupErr ∧ notedFail (u.entry e) = false ∧
        (a.waits = true → v.wait = .idle → (u.entry e).outcome = .okLevel (u.targetLevel true))) ∨
      (notedFail (u.entry e) = true ∧ RecordsFailure .hardwareIo u v) ∨
      (a.waits = true ∧ (u.entry e).outcome = .okLevel (!u.targetLevel true) ∧ RecordsFailure .hardwareTimeout u v) := by
  obtain ⟨hbest, -⟩ := unchecked_step ho ha
  obtain ⟨-, hasserted⟩ := shutdownWait_iff ho ha
  have hev {e' : Event} (h : u.itemEvent a = some e') : e' = e := Option.some.inj (h.symm.trans he)
  have heff (s : State) : (a.effect s).error = s.error ∧ (a.effect s).cleanupErr = s.cleanupErr := by cases a <;> exact ⟨rfl, rfl⟩
  have hissue (e : Event) : (u.issue a e).error = u.error ∧ (u.issue a e).cleanupErr = u.cleanupErr := by
    unfold State.issue
    split <;> simp
  cases hi with
  | passed | rejected => cases he
  | done _ e' he' hw hok =>
    obtain rfl := hev he'
    refine .inl ⟨by simp [heff, hissue], by simp [heff, hissue], by simp [notedFail, hok], fun h => by rw [hw] at h; cases h⟩
  | ignored l v hf =>
    have h4 : u.seq.step = 4 := hbest.2 ⟨l, v, rfl⟩
    exact .inl ⟨by simp, by simp, by simp [notedFail, h4], fun h => by cases h⟩
  | failed _ e' he' hu hf =>
    obtain rfl := hev he'
    have h4 : u.seq.step ≠ 4 := fun h => by
      obtain ⟨l, v, rfl⟩ := hbest.1 h
      cases hu
    exact .inr (.inl ⟨by simp [notedFail, hf, h4], recordsFailure_of_failItem _ (by simp) (hissue e')⟩)
  | matched b hw hl =>
    obtain rfl := hev (itemEvent_of_poll b hw)
    obtain ⟨rfl⟩ : b = true := by simpa using hasserted rfl
    exact .inl ⟨by simp, by simp, by simp [notedFail, hl], fun _ _ => hl⟩
  | timedOut b hw hl hlate =>
    obtain rfl := hev (itemEvent_of_poll b hw)
    obtain ⟨rfl⟩ : b = true := by simpa using hasserted rfl
    exact .inr (.inr ⟨rfl, hl, recordsFailure_of_failItem _ (by simp) (by simp)⟩)
  | polled b hw hl hearly =>
    obtain rfl := hev (itemEvent_of_poll b hw)
    exact .inl ⟨by simp, by simp, by simp [notedFail, hl], fun _ h => by cases h⟩
  | slept b t0 hw =>
    obtain rfl : Event.delay Config.busyPollMs = e := hev (by simp [State.itemEvent, hw])
    exact .inl ⟨by simp, by simp, by simp [notedFail], fun _ h => by cases h⟩

/-! ### The record of a move -/

/-- The record after a move whose entry is not of the busy wait. -/
theorem records_concat {u v : State} {a : Action} {e : Event} {es : List Entry} (hi : ItemMove u a v)
    (ho : u.seq.op.shutsDown) (ha : actionAt u.seq = some a) (he : u.itemEvent a = some e) (hw : a.waits = false)
    (h : u.records u.seq.op (u.targetLevel true) es) : v.records u.seq.op (u.targetLevel true) (es ++ [u.entry e]) := by
  obtain ⟨hoff, hcl⟩ := h
  have hpos : (u.entry e).pos ≠ shutdownWait u.seq.op := fun hp => by
    rw [(shutdownWait_iff ho ha).1.1 hp] at hw; cases hw
  have hwait (op : Op) (hop : u.seq.op = op) : waitTimedOut op (u.targetLevel true) (es ++ [u.entry e]) =
      waitTimedOut op (u.targetLevel true) es := by rw [waitTimedOut_concat, if_neg (hop ▸ hpos)]
  rcases itemMove_records hi ho ha he with ⟨h1, h2, hn, -⟩ | ⟨hn, hrec⟩ | ⟨hw', -⟩
  · refine ⟨fun hop => ?_, fun hop => ?_⟩
    · rw [h1, hoff hop, notedError_concat_other hn (hwait _ hop)]
    · rw [h2, hcl hop, cleanupFailed, cleanupFailed, hwait _ hop]
      simp [hn]
  · refine ⟨fun hop => ?_, fun hop => ?_⟩
    · rw [(hrec.powerOff hop).1, hoff hop, notedError_concat_noted hn (hwait _ hop)]; rfl
    · rw [(hrec.cleanup hop).1, cleanupFailed]; simp [hn]
  · rw [hw] at hw'; cases hw'

theorem records_of_none {op : Op} {target : Bool} {es : List Entry} {s : State} (h : s.recordsNone op)
    (hn : es.any notedFail = false) (hw : waitTimedOut op target es = false) : s.records op target es := by
  refine ⟨fun hop => ?_, fun hop => ?_⟩
  · rw [h.1 hop, notedError_of_clean (hop ▸ hw) hn]
  · rw [h.2 hop, cleanupFailed, hn, ← hop, hw]; rfl

/-- The record after the last move of the busy wait. -/
theorem records_of_wait {u v : State} {a : Action} {e : Event} {es : List Entry} (hi : ItemMove u a v)
    (ho : u.seq.op.shutsDown) (ha : actionAt u.seq = some a) (he : u.itemEvent a = some e) (hw : a.waits = true)
    (hidle : v.wait = .idle) (h : u.recordsNone u.seq.op) (hn : es.any notedFail = false) :
    v.records u.seq.op (u.targetLevel true) (es ++ [u.entry e]) := by
  have hpos : (u.entry e).pos = shutdownWait u.seq.op := (shutdownWait_iff ho ha).1.2 hw
  have hwait : waitTimedOut u.seq.op (u.targetLevel true) (es ++ [u.entry e]) =
      decide ((u.entry e).outcome = .okLevel (!u.targetLevel true)) := by rw [waitTimedOut_concat, if_pos hpos]
  rcases itemMove_records hi ho ha he with ⟨h1, h2, hnot, hlevel⟩ | ⟨hnot, hrec⟩ | ⟨-, hlevel, hrec⟩
  · refine records_of_none ⟨fun hop => h1.trans (h.1 hop), fun hop => h2.trans (h.2 hop)⟩ ?_ ?_
    · rw [List.any_append, hn]; simp [hnot]
    · rw [hwait, hlevel hw hidle]; simp
  · have hfail : (u.entry e).outcome = .fail := by
      simp only [notedFail, Bool.and_eq_true, decide_eq_true_eq] at hnot
      exact hnot.1
    have hno : waitTimedOut u.seq.op (u.targetLevel true) (es ++ [u.entry e]) = false := by rw [hwait, hfail]; rfl
    refine ⟨fun hop => ?_, fun hop => ?_⟩
    · have hfind : es.find? notedFail = none := by simpa using hn
      rw [hop] at hno
      rw [(hrec.powerOff hop).1, h.1 hop, if_pos (show noError.code = .none from rfl), notedError, hno, List.find?_append, hfind]
      simp [hnot, notedAt]
    · rw [(hrec.cleanup hop).1, cleanupFailed]; simp [hnot]
  · have hyes : waitTimedOut u.seq.op (u.targetLevel true) (es ++ [u.entry e]) = true := by rw [hwait, hlevel]; simp
    refine ⟨fun hop => ?_, fun hop => ?_⟩
    · rw [hop] at hyes hpos
      rw [(hrec.powerOff hop).1, h.1 hop, notedError_of_timedOut hyes, ← hpos]; rfl
    · rw [hop] at hyes
      rw [(hrec.cleanup hop).1, cleanupFailed, hyes, Bool.or_true]

/-! ### The shutdown -/

/-- A line still held after the item of its Unexport has had a failed one (R104). -/
def State.releases (es : List Entry) (s : State) : Prop :=
  ∀ l, .unexportLine l ∉ s.seq.ahead → s.exported.get l = true →
    ∃ e ∈ es, e.event = .unexportLine (s.lineNumber l) ∧ e.outcome = .fail

/-- A shutdown with the entries it has made: where it stands, the events it has had and those left, what is on record, the lines
released; `total` are all its events, and `kept` is ERROR during a CLEANUP (R104). -/
structure Shutdown (op : Op) (total : List Event) (kept : ErrorReg) (es : List Entry) (u : State) : Prop where
  seq : u.seq.op = op ∨ u.seq = noOperation
  active : u.seq.op = op → u.seq.step = 0 → u.session = true
  counted : outsideWait op es ++ u.eventsLeft = total
  early : u.seq.op = op → u.seq.step ≤ 1 → u.recordsNone op ∧ es.any notedFail = false ∧
    ∀ e ∈ es, e.pos = shutdownWait op → u.seq = shutdownWait op ∧ (op = .cleanup → u.holdsFor (.waitBusy true) = true)
  late : u.seq = noOperation ∨ 2 ≤ u.seq.step → u.records op (u.targetLevel true) es
  other : (op = .powerOff → u.cleanupErr = false) ∧ (op = .cleanup → u.error = kept)
  released : u.releases es
  closed : u.seq = noOperation → u.session = false

/-- The shutdown's steps, in order: its test, DEEP_SLEEP and the busy wait come first (R101, R104). -/
theorem shutdown_steps {c : Cursor} {a : Action} (ho : c.op.shutsDown) (ha : actionAt c = some a) :
    (∀ d, nextItem c = some d → d.step ≤ 1 → c.step ≤ 1 ∧ a.waits = false) ∧
      (∀ d, nextItem c = some d → 2 ≤ d.step → 2 ≤ c.step ∨ a.waits = true) ∧ (nextItem c = none → 2 ≤ c.step) ∧
      (∀ d, nextItem c = some d → 1 ≤ d.step) ∧ (a.waits = true → c.step = 1) ∧
      (c.step = 0 → a = .test .sessionActive) ∧ (∀ k, a = .test k → c.step = 0 ∧ k = .sessionActive) := by
  have table := of_shutdown (Q := fun c a => ((nextItem c).all (fun d => (Nat.ble 2 d.step || (Nat.ble c.step 1 && !a.waits)) &&
    (Nat.ble d.step 1 || Nat.ble 2 c.step || a.waits) && Nat.ble 1 d.step) && (!(nextItem c == none) || Nat.ble 2 c.step) &&
    (!a.waits || c.step == 1) && (!(c.step == 0) || a == .test .sessionActive) &&
    allChecks.all (fun k => !(a == .test k) || (c.step == 0 && k == .sessionActive))) = true) (by decide) ho ha
  simp only [Bool.and_eq_true] at table
  obtain ⟨⟨⟨⟨hnext, hlast⟩, hwait⟩, hzero⟩, htest⟩ := table
  have hd {d : Cursor} (h : nextItem c = some d) : ((2 ≤ d.step ∨ (c.step ≤ 1 ∧ a.waits = false)) ∧
      ((d.step ≤ 1 ∨ 2 ≤ c.step) ∨ a.waits = true)) ∧ 1 ≤ d.step := by
    simpa [h] using hnext
  refine ⟨fun d h h1 => ?_, fun d h h2 => ?_, fun h => ?_, fun d h => (hd h).2, fun h => by simpa [h] using hwait,
    fun h => by simpa [h] using hzero, fun k h => by simpa [h] using List.all_eq_true.1 htest k (mem_allChecks k)⟩
  · exact (hd h).1.1.resolve_left (by omega)
  · rcases (hd h).1.2 with (h' | h') | h'
    · omega
    · exact .inl h'
    · exact .inr h'
  · simpa [h] using hlast

/-- What the handles say of the lines released, after a move: a line still held was held before, and its Unexport, if it was this
item's, has failed. -/
theorem released_issued {u v : State} {a : Action} {e : Event} {es : List Entry} (hi : ItemMove u a v) (ho : u.seq.op.shutsDown)
    (ha : actionAt u.seq = some a) (he : u.itemEvent a = some e)
    (h : u.releases es) : v.releases (es ++ [u.entry e]) := by
  intro l hpast hheld
  have hnum : v.lineNumber l = u.lineNumber l := by
    rw [State.lineNumber, State.lineNumber, show v.params = u.params from congrArg HostSide.params (itemMove_hostSide hi)]
  rw [hnum]
  by_cases hal : a = .unexportLine l
  · refine ⟨u.entry e, by simp, ?_⟩
    subst hal
    cases he
    refine ⟨rfl, ?_⟩
    rcases itemMove_handles hi with ⟨hexp, -⟩ | ⟨-, -, e', he', hf⟩
    · rw [hexp] at hheld; simp [Action.effect, Exported.get_put] at hheld
    · cases he'; exact hf
  · have hbefore : .unexportLine l ∉ u.seq.ahead := by
      rcases landing_ahead (itemMove_landing hi ha) ho ha (fun k hk => by rw [hk] at he; cases he) with ⟨hseq, -⟩ | hu | hu
      · exact hseq ▸ hpast
      · rw [hu]; simp [hpast, Ne.symm hal]
      · rw [hu]; simp [hpast, Ne.symm hal]
    have hwas : u.exported.get l = true := by
      rcases (itemMove_releases hi (shutdown_acquires_nothing ho ha)).1 l with hsame | ⟨h', -⟩
      · exact hsame ▸ hheld
      · exact absurd h' hal
    obtain ⟨x, hx, hev⟩ := h l hbefore hwas
    exact ⟨x, List.mem_append_left _ hx, hev⟩

theorem Shutdown.issued {op : Op} {total : List Event} {kept : ErrorReg} {es : List Entry} {u v : State} {a : Action} {e : Event}
    (hop : op.shutsDown) (h : Shutdown op total kept es u) (ha : actionAt u.seq = some a)
    (hh : u.seq.op = .cleanup → u.holdsFor a = true) (hi : ItemMove u a v) (he : u.itemEvent a = some e) :
    Shutdown op total kept (es ++ [u.entry e]) v := by
  obtain ⟨hseq, hactive, hcounted, hearly, hlate, hother, hreleased, hclosed⟩ := h
  obtain rfl : u.seq.op = op := hseq.resolve_right fun hn => by rw [hn] at ha; cases ha
  have hl := itemMove_landing hi ha
  have htarget : v.targetLevel true = u.targetLevel true := by
    rw [State.targetLevel, State.targetLevel, show v.params = u.params from congrArg HostSide.params (itemMove_hostSide hi)]
  obtain ⟨hto1, hto2, hlast, hge1, hwait1, hzero, -⟩ := shutdown_steps hop ha
  obtain ⟨hwaitpos, hasserted⟩ := shutdownWait_iff hop ha
  have hnoTest (k : Check) : a ≠ .test k := by rintro rfl; cases he
  have hland : (v.seq = u.seq ∧ a.waits = true ∧ v.wait ≠ .idle) ∨ nextItem u.seq = some v.seq ∨
      (u.seq.step = 1 ∧ v.seq = { op := u.seq.op, step := 2, item := 0 }) ∨
      (v.seq = noOperation ∧ nextItem u.seq = none ∧ v.session = false) := by
    cases hl with
    | stays hw hseq _ _ hwait => exact .inl ⟨hseq, hw, hwait⟩
    | next d hn _ hseq => exact .inr (.inl (hseq ▸ hn))
    | closes hn _ hseq _ hs =>
      refine .inr (.inr (.inr ⟨hseq, hn, ?_⟩))
      rw [hs, closing_session_eq]
      rcases hop with hop | hop <;> rw [hop] <;> rfl
    | stops k hk => exact absurd hk (hnoTest k)
    | cleansUp ho' => rcases hop with ho | ho <;> rcases ho' with ho' | ho' <;> rw [ho] at ho' <;> cases ho'
    | skipsWait _ h1 hseq => exact .inr (.inr (.inl ⟨h1, hseq⟩))
  have hrec := itemMove_records hi hop ha he
  have hnoOp : u.seq ≠ noOperation := fun hn => by rw [hn] at ha; cases ha
  have hopNone : u.seq.op ≠ .none := (op_ne_of_action ha).1
  refine ⟨landing_shutdown hl hop, fun hv h0 => ?_, ?_, fun hv h1 => ?_, fun hv => ?_, ?_,
    released_issued hi hop ha he hreleased, fun hv => ?_⟩
  · rcases hland with ⟨hseq, hw, -⟩ | hn | ⟨-, hseq⟩ | ⟨hseq, -⟩
    · have := hwait1 hw; rw [hseq] at h0; omega
    · have := hge1 _ hn; omega
    · rw [hseq] at h0; cases h0
    · rw [hseq] at hv; exact absurd hv.symm hopNone
  · rw [outsideWait_append, List.append_assoc, eventsLeft_issued hi hop ha hh he, hcounted]
  · have hu1 : u.seq.step ≤ 1 := by
      rcases hland with ⟨hseq, -⟩ | hn | ⟨hu1, -⟩ | ⟨hseq, -⟩
      · exact hseq ▸ h1
      · exact (hto1 _ hn h1).1
      · exact hu1.le
      · rw [hseq] at hv; exact absurd hv.symm hopNone
    have hstep : u.seq.step = 1 := by
      have : u.seq.step ≠ 0 := fun h0 => hnoTest _ (hzero h0)
      omega
    obtain ⟨hnone, hany, hwas⟩ := hearly rfl hu1
    obtain ⟨he1, he2, hn⟩ : v.error = u.error ∧ v.cleanupErr = u.cleanupErr ∧ notedFail (u.entry e) = false := by
      rcases hrec with ⟨he1, he2, hn, -⟩ | ⟨-, hf⟩ | ⟨-, -, hf⟩
      · exact ⟨he1, he2, hn⟩
      · have := hf.second hop hstep; omega
      · have := hf.second hop hstep; omega
    refine ⟨⟨fun ho => he1.trans (hnone.1 ho), fun ho => he2.trans (hnone.2 ho)⟩, by simp [hany, hn], fun x hx hp => ?_⟩
    cases hw : a.waits with
    | true =>
      obtain rfl := hasserted hw
      have hsame : v.seq = u.seq := by
        rcases hland with ⟨hseq, -⟩ | hn | ⟨-, hseq⟩ | ⟨hseq, -⟩
        · exact hseq
        · have := (hto1 _ hn h1).2; cases this
        · rw [hseq] at h1; simp at h1
        · rw [hseq] at hv; exact absurd hv.symm hopNone
      obtain ⟨h2, h3⟩ := itemMove_keepsHandles rfl hi
      refine ⟨hsame ▸ hwaitpos.2 rfl, fun ho => ?_⟩
      have hheld := hh ho
      rw [State.holdsFor, h2, h3]
      exact hheld
    | false =>
      have hno : u.seq ≠ shutdownWait u.seq.op := fun h => by rw [hwaitpos.1 h] at hw; cases hw
      rcases List.mem_append.1 hx with hm | hm
      · exact absurd (hwas x hm hp).1 hno
      · obtain rfl := List.mem_singleton.1 hm
        exact absurd hp hno
  · rw [htarget]
    cases hw : a.waits with
    | true =>
      have hidle : v.wait = .idle := by
        rcases itemMove_wait hi with hidle | ⟨-, hseq, -⟩
        · exact hidle
        · rw [hseq] at hv
          have := hwait1 hw
          rcases hv with hv | hv
          · exact absurd hv hnoOp
          · omega
      obtain ⟨hnone, hany, -⟩ := hearly rfl (hwait1 hw).le
      exact records_of_wait hi hop ha he hw hidle hnone hany
    | false =>
      refine records_concat hi hop ha he hw ?_
      rcases Nat.lt_or_ge u.seq.step 2 with h2 | h2
      · obtain ⟨hnone, hany, hwas⟩ := hearly rfl (by omega)
        refine records_of_none hnone hany (waitTimedOut_of_none fun x hx hp => ?_)
        rw [hwaitpos.1 (hwas x hx hp).1] at hw
        cases hw
      · exact hlate (.inr h2)
  · refine ⟨fun ho => ?_, fun ho => ?_⟩
    · rcases hrec with ⟨-, hc, -⟩ | ⟨-, hf⟩ | ⟨-, -, hf⟩
      · rw [hc, hother.1 ho]
      · rw [(hf.powerOff ho).2, hother.1 ho]
      · rw [(hf.powerOff ho).2, hother.1 ho]
    · rcases hrec with ⟨hc, -⟩ | ⟨-, hf⟩ | ⟨-, -, hf⟩
      · rw [hc, hother.2 ho]
      · rw [(hf.cleanup ho).2, hother.2 ho]
      · rw [(hf.cleanup ho).2, hother.2 ho]
  · rcases hland with ⟨hseq, -⟩ | hn | ⟨-, hseq⟩ | ⟨-, -, hs⟩
    · exact absurd (hseq ▸ hv) hnoOp
    · have := (nextItem_spec hn).1; rw [hv] at this; cases this
    · exact absurd (congrArg Cursor.step (hv.symm.trans hseq)) (by simp [noOperation])
    · exact hs

/-- An advance past an item that issues no event: a test that holds, or an item that CLEANUP skips. -/
theorem Shutdown.advanced {op : Op} {total : List Event} {kept : ErrorReg} {es : List Entry} {u : State} {a : Action}
    (hop : op.shutsDown) (h : Shutdown op total kept es u) (ha : actionAt u.seq = some a) (hl : Landing u a u.advance)
    (hgo : ∀ k, a = .test k → u.passes k = true)
    (hnone : a.shutdownEvents u.params.lines u.countsHeld u.countsOpen = [])
    (hfree : ∀ l, a = .unexportLine l → u.exported.get l = false)
    (hskip : a.waits = true → op = .cleanup ∧ u.holdsFor a = false) : Shutdown op total kept es u.advance := by
  obtain ⟨hseq, hactive, hcounted, hearly, hlate, hother, hreleased, hclosed⟩ := h
  obtain rfl : u.seq.op = op := hseq.resolve_right fun hn => by rw [hn] at ha; cases ha
  obtain ⟨hto1, hto2, hlast, hge1, hwait1, -⟩ := shutdown_steps hop ha
  obtain ⟨hwaitpos, hasserted⟩ := shutdownWait_iff hop ha
  obtain ⟨herr, hcerr⟩ := advance_record u
  have hnoWait (hu1 : u.seq.step ≤ 1) : ∀ e ∈ es, e.pos ≠ shutdownWait u.seq.op := fun x hx hp => by
    obtain ⟨hat, hheld⟩ := (hearly rfl hu1).2.2 x hx hp
    have hw := hwaitpos.1 hat
    obtain ⟨hc, hn⟩ := hskip hw
    rw [hasserted hw, hheld hc] at hn
    cases hn
  refine ⟨landing_shutdown hl hop, ?_, by rw [eventsLeft_advance hl hop ha hgo hnone, hcounted], ?_, ?_, ?_, ?_, ?_⟩
  · rcases advance_cases u with ⟨d, hn, hv⟩ | ⟨hn, hv⟩
    · intro _ h0; rw [hv] at h0; have := hge1 d hn; exact absurd h0 (by show d.step ≠ 0; omega)
    · intro hv'; rw [hv] at hv'; exact absurd hv'.symm (op_ne_of_action ha).1
  · rcases advance_cases u with ⟨d, hn, hv⟩ | ⟨hn, hv⟩
    · intro _ h1
      obtain ⟨hu1, -⟩ := hto1 d hn (by rw [hv] at h1; exact h1)
      obtain ⟨hrec, hany, -⟩ := hearly rfl hu1
      exact ⟨⟨fun ho => herr.trans (hrec.1 ho), fun ho => hcerr.trans (hrec.2 ho)⟩, hany,
        fun x hx hp => absurd hp (hnoWait hu1 x hx)⟩
    · intro hv'; rw [hv] at hv'; exact absurd hv'.symm (op_ne_of_action ha).1
  · intro _
    have htarget : u.advance.targetLevel true = u.targetLevel true := by simp [State.targetLevel]
    have hrec : u.records u.seq.op (u.targetLevel true) es := by
      rcases Nat.lt_or_ge u.seq.step 2 with h2 | h2
      · obtain ⟨hrec, hany, -⟩ := hearly rfl (by omega)
        exact records_of_none hrec hany (waitTimedOut_of_none (hnoWait (by omega)))
      · exact hlate (.inr h2)
    rw [htarget]
    exact ⟨fun ho => herr.trans (hrec.1 ho), fun ho => hcerr.trans (hrec.2 ho)⟩
  · exact ⟨fun ho => hcerr.trans (hother.1 ho), fun ho => herr.trans (hother.2 ho)⟩
  · intro l hpast hheld
    rw [State.advance_exported] at hheld
    have hal : a ≠ .unexportLine l := fun h => by rw [hfree l h] at hheld; cases hheld
    have hnum : u.advance.lineNumber l = u.lineNumber l := by simp [State.lineNumber]
    rw [hnum]
    refine hreleased l ?_ hheld
    rcases landing_ahead hl hop ha hgo with ⟨hs, -⟩ | hu | hu
    · exact hs ▸ hpast
    · rw [hu]; simp [hpast, Ne.symm hal]
    · rw [hu]; simp [hpast, Ne.symm hal]
  · rcases advance_cases u with ⟨d, hn, hv⟩ | ⟨hn, hv⟩
    · intro hv'
      rw [hv] at hv'
      have := (nextItem_spec hn).1
      rw [show d = noOperation from hv'] at this
      cases this
    · intro _
      rw [hv, State.endOperation_session, closing_session_eq]
      rcases hop with hop | hop <;> rw [hop] <;> rfl

theorem Shutdown.skipped {total : List Event} {kept : ErrorReg} {es : List Entry} {u : State} {a : Action}
    (h : Shutdown .cleanup total kept es u) (ha : actionAt u.seq = some a) (hc : u.seq.op = .cleanup)
    (hn : u.holdsFor a = false) : Shutdown .cleanup total kept es u.advance :=
  h.advanced (.inr rfl) ha (skipped_landing ha hc) (fun k hk => by rw [hk] at hn; cases hn) (shutdownEvents_skipped hc ha hn)
    (fun l hl => by rw [hl] at hn; exact hn) (fun _ => ⟨rfl, hn⟩)

/-- The one test of a shutdown is POWER_OFF's of SESSION, and in Active it holds (R101). -/
theorem Shutdown.tested {op : Op} {total : List Event} {kept : ErrorReg} {es : List Entry} {u v : State} {k : Check}
    (hop : op.shutsDown) (h : Shutdown op total kept es u) (ha : actionAt u.seq = some (.test k))
    (hi : ItemMove u (.test k) v) : Shutdown op total kept es v := by
  have ho : u.seq.op = op := h.seq.resolve_right fun hn => by rw [hn] at ha; cases ha
  obtain ⟨-, -, -, -, -, -, htest⟩ := shutdown_steps (ho ▸ hop) ha
  obtain ⟨h0, rfl⟩ := htest k rfl
  have hpass : u.passes .sessionActive = true := h.active ho h0
  have hv : v = u.advance := by
    cases hi with
    | passed => rfl
    | rejected _ hf => rw [hpass] at hf; cases hf
    | done _ e he => cases he
    | failed _ e he => cases he
  have hl := itemMove_landing hi ha
  rw [hv] at hl ⊢
  exact h.advanced hop ha hl (fun k hk => by cases hk; exact hpass) rfl (fun l hl => by cases hl) (fun hw => by cases hw)

/-! ### POWER_OFF -/

theorem keptByItems_powerOff (s : State) (total : List Event) (kept : ErrorReg) :
    KeptByItems s (Shutdown .powerOff total kept) := by
  refine ⟨fun es u a _ ha hc _ h => ?_, fun es u v k _ ha hi h => h.tested (.inl rfl) ha hi,
    fun es u v a e _ ha hh hi he h => h.issued (.inl rfl) ha hh hi he⟩
  rcases h.seq with ho | hn
  · rw [hc] at ho; cases ho
  · rw [hn] at hc; cases hc

/-- Both shutdowns, from their first item on, release every line (R101, R104). -/
theorem unexportLine_ahead (l : Line) : .unexportLine l ∈ Cursor.ahead { op := .powerOff, step := 0, item := 0 } ∧
    .unexportLine l ∈ Cursor.ahead { op := .cleanup, step := 1, item := 0 } := by cases l <;> decide

/-- An accepted POWER_OFF, in Active, has all of its shutdown ahead (R101). -/
theorem shutdown_powerOff {s : State} (hs : s.session = true) :
    Shutdown .powerOff (eventsAhead s.params.lines (fun _ => true) true { op := .powerOff, step := 0, item := 0 }) noError []
      (s.acceptCommand .powerOff 0) := by
  refine ⟨.inl rfl, fun _ _ => hs, rfl, fun _ _ => ⟨⟨fun _ => rfl, fun h => by cases h⟩, rfl, by simp⟩, fun h => ?_,
    ⟨fun _ => rfl, fun h => by cases h⟩, fun l hl => ?_, fun h => by cases h⟩
  · rcases h with h | h
    · cases h
    · simp at h
  · exact absurd (unexportLine_ahead l).1 hl

/-- In Active, POWER_OFF comes to rest with the whole of its shutdown behind it. -/
theorem hostCommand_powerOff {s : State} (hb : s.busy = false) (hs : s.session = true) (hi : s.inputs = []) :
    (s.hostCommand .powerOff).atRest ∧
      Shutdown .powerOff (eventsAhead s.params.lines (fun _ => true) true { op := .powerOff, step := 0, item := 0 }) noError
        (newEntries s (s.hostCommand .powerOff)) (s.hostCommand .powerOff) := by
  have h := (keptByItems_powerOff s _ noError).hostCommand (op := .powerOff) (.inr (.inr rfl)) hb hi (shutdown_powerOff hs)
  exact ⟨h.1, h.2.2⟩

/-- Settles O35: at rest, the shutdown has no event left, and ERROR is its record. -/
theorem powerOffAlwaysRunsToCompletion : Obligations.PowerOffAlwaysRunsToCompletion := by
  intro s hb hs hi
  obtain ⟨⟨hbusy, hseq⟩, h⟩ := hostCommand_powerOff hb hs hi
  have htarget : (s.hostCommand .powerOff).targetLevel true = s.params.busyAssertedLevel := by
    rw [State.targetLevel, show (s.hostCommand .powerOff).params = s.params from
      congrArg HostSide.params (hostCommand_hostSide .powerOff s)]
    rfl
  refine ⟨_, rfl, hbusy, h.closed hseq, h.other.1 rfl, ?_, ?_⟩
  · rw [← htarget]; exact (h.late (.inl hseq)).1 rfl
  · have hnone : (s.hostCommand .powerOff).eventsLeft = [] := by rw [State.eventsLeft, hseq]; rfl
    have hcounted := h.counted
    rw [hnone, List.append_nil] at hcounted
    exact hcounted

end Sys2Proof.Machine
end

section
/-! PROOFS. POWER_ON and SEND_IMAGE, whatever the environment answers (42_panel_sequencer.md R92, R95, R97, R104, R106; 60_exceptions.md
R122): every item goes well, or one event fails and CLEANUP follows (`HardwareRun`). Settles O29, O32 and O36. -/

namespace Sys2Proof.Machine

/-- The operation raises hardware errors, which CLEANUP follows (R122). -/
abbrev Op.raises (op : Op) : Prop := op = .powerOn ∨ op = .sendImage

/-! ### The items -/

/-- A fact of every item of POWER_ON and SEND_IMAGE. -/
theorem of_raising {Q : Cursor → Action → Prop} (hQ : ∀ op ∈ [Op.powerOn, .sendImage], ∀ p ∈ op.script, Q p.1 p.2) {c : Cursor}
    {a : Action} (hc : c.op.raises) (ha : actionAt c = some a) : Q c a := by
  rcases hc with hc | hc
  · exact of_script (hQ .powerOn (by decide)) hc ha
  · exact of_script (hQ .sendImage (by decide)) hc ha

/-- A test is not an operation's last item, and no test follows an event (R95, R97). -/
theorem raising_tests {c : Cursor} {a : Action} (hc : c.op.raises) (ha : actionAt c = some a) :
    (∀ k, a = .test k → ∃ d, nextItem c = some d) ∧
      ∀ d k, nextItem c = some d → actionAt d = some (.test k) → ∃ k', a = .test k' := by
  have table := of_raising (Q := fun c a => ((∃ k ∈ allChecks, a = .test k) → (nextItem c).isSome = true) ∧
    ∀ k ∈ allChecks, (nextItem c).bind actionAt = some (.test k) → ∃ k' ∈ allChecks, a = .test k') (by decide) hc ha
  refine ⟨fun k hk => Option.isSome_iff_exists.1 (table.1 ⟨k, mem_allChecks k, hk⟩), fun d k hn hd => ?_⟩
  obtain ⟨k', -, h⟩ := table.2 k (mem_allChecks k) (by rw [hn]; exact hd)
  exact ⟨k', h⟩

/-- POWER_ON has no busy wait, and neither operation a best-effort item (R95, R97). -/
theorem raising_items {c : Cursor} {a : Action} (hc : c.op.raises) (ha : actionAt c = some a) :
    (a.waits = true → c.op = .sendImage) ∧ ∀ l v, a ≠ .setBestEffort l v := by
  have table := of_raising (Q := fun c a => (a.waits = true → c.op = .sendImage) ∧ ∀ l ∈ allLines, a ≠ .setBestEffort l true ∧
    a ≠ .setBestEffort l false) (by decide) hc ha
  refine ⟨table.1, fun l v => ?_⟩
  cases v
  · exact (table.2 l (mem_allLines l)).2
  · exact (table.2 l (mem_allLines l)).1

/-- SEND_IMAGE comes past REFRESH by REFRESH alone, and ends past it (R97). -/
theorem past_refresh {c : Cursor} {a : Action} (hc : c.op = .sendImage) (ha : actionAt c = some a) :
    (∀ d, nextItem c = some d → refreshPos.rank < d.rank → refreshPos.rank < c.rank ∨ c = refreshPos) ∧
      (nextItem c = none → refreshPos.rank < c.rank) := by
  have table := of_script (op := .sendImage) (Q := fun c _ => ((nextItem c).all (fun d => Nat.ble d.rank refreshPos.rank ||
    Nat.blt refreshPos.rank c.rank || c == refreshPos) && (!(nextItem c == none) || Nat.blt refreshPos.rank c.rank)) = true)
    (by decide) hc ha
  rw [Bool.and_eq_true] at table
  refine ⟨fun d hd hlt => ?_, fun hn => by simpa [hn] using table.2⟩
  have h := table.1
  rw [hd] at h
  have : (d.rank ≤ refreshPos.rank ∨ refreshPos.rank < c.rank) ∨ c = refreshPos := by simpa using h
  rcases this with (h | h) | h
  · omega
  · exact .inl h
  · exact .inr h

/-- A move of POWER_ON or SEND_IMAGE that issues an event goes on, or ends the operation, or starts CLEANUP with its error. -/
theorem itemMove_raising {u v : State} {a : Action} {e : Event} (hi : ItemMove u a v) (ho : u.seq.op.raises)
    (ha : actionAt u.seq = some a) (he : u.itemEvent a = some e) :
    ((u.entry e).outcome ≠ .fail ∧ v.error = u.error ∧ v.cleanupErr = u.cleanupErr ∧
        (((v.seq = u.seq ∨ nextItem u.seq = some v.seq) ∧ v.session = u.session) ∨
          (nextItem u.seq = none ∧ v.seq = noOperation ∧ v.session = u.seq.op.closingSession u.session))) ∨
      (∃ code, ((code = .hardwareIo ∧ (u.entry e).outcome = .fail) ∨
          (code = .hardwareTimeout ∧ (u.entry e).outcome ≠ .fail ∧ isGet (u.entry e) = true ∧ u.seq.op = .sendImage)) ∧
        v.seq = { op := .cleanup, step := 1, item := 0 } ∧ v.cleanupErr = u.cleanupErr ∧
        v.exported = u.exported ∧ v.busOpen = u.busOpen ∧
        v.error = { code := code, phase := u.seq.op.phase, step := BitVec.ofNat 8 u.seq.step,
                    item := BitVec.ofNat 8 u.seq.item }) := by
  obtain ⟨hwaits, hbest⟩ := raising_items ho ha
  have hev {e' : Event} (h : u.itemEvent a = some e') : e' = e := Option.some.inj (h.symm.trans he)
  have heff (s : State) : (a.effect s).error = s.error ∧ (a.effect s).cleanupErr = s.cleanupErr := by cases a <;> exact ⟨rfl, rfl⟩
  have hissue (e : Event) : (u.issue a e).error = u.error ∧ (u.issue a e).cleanupErr = u.cleanupErr := by
    unfold State.issue
    split <;> simp
  have advances {w : State} (hq : w.seq = u.seq) (hs : w.session = u.session) (he : w.error = u.error)
      (hc : w.cleanupErr = u.cleanupErr) (hv : v = w.advance) :
      v.error = u.error ∧ v.cleanupErr = u.cleanupErr ∧
        (((v.seq = u.seq ∨ nextItem u.seq = some v.seq) ∧ v.session = u.session) ∨
          (nextItem u.seq = none ∧ v.seq = noOperation ∧ v.session = u.seq.op.closingSession u.session)) := by
    subst hv
    obtain ⟨h1, h2⟩ := advance_record w
    refine ⟨h1.trans he, h2.trans hc, ?_⟩
    rcases advance_cases w with ⟨d, hn, hd⟩ | ⟨hn, hd⟩
    · rw [hd]; exact .inl ⟨.inr (hq ▸ hn), hs⟩
    · rw [hd]
      refine .inr ⟨hq ▸ hn, rfl, ?_⟩
      rw [State.endOperation_session, closing_session_eq, hq, hs]
  have starts {w : State} {code : ErrorCode} (hcode : code.isHardware = true) (hq : w.seq = u.seq)
      (hc : w.cleanupErr = u.cleanupErr) (hx : w.exported = u.exported ∧ w.busOpen = u.busOpen) (hv : v = w.failItem code) :
      v.seq = { op := .cleanup, step := 1, item := 0 } ∧ v.cleanupErr = u.cleanupErr ∧
        v.exported = u.exported ∧ v.busOpen = u.busOpen ∧
        v.error = { code := code, phase := u.seq.op.phase, step := BitVec.ofNat 8 u.seq.step,
                    item := BitVec.ofNat 8 u.seq.item } := by
    rw [hv, failItem_starts hcode (hq ▸ ho), hq]
    exact ⟨rfl, hc, hx.1, hx.2, rfl⟩
  cases hi with
  | passed | rejected => cases he
  | done _ e' he' hw hok =>
    obtain rfl := hev he'
    exact .inl ⟨hok, advances (w := a.effect (u.issue a e')) (by simp) (by simp) (by simp [heff, hissue])
      (by simp [heff, hissue]) rfl⟩
  | ignored l v hf => exact absurd rfl (hbest l v)
  | failed _ e' he' hu hf =>
    obtain rfl := hev he'
    exact .inr ⟨.hardwareIo, .inl ⟨rfl, hf⟩, starts rfl (by simp) (hissue e').2 (issue_handles a e' u) rfl⟩
  | matched b hw hl =>
    obtain rfl := hev (itemEvent_of_poll b hw)
    exact .inl ⟨by simp [hl], advances (w := u.emit (.get (u.lineNumber .busy))) (by simp) (by simp) (by simp) (by simp) rfl⟩
  | timedOut b hw hl hlate =>
    obtain rfl := hev (itemEvent_of_poll b hw)
    exact .inr ⟨.hardwareTimeout, .inr ⟨rfl, by simp [hl], rfl, hwaits rfl⟩, starts rfl (by simp) (by simp) (by simp) rfl⟩
  | polled b hw hl hearly =>
    obtain rfl := hev (itemEvent_of_poll b hw)
    exact .inl ⟨by simp [hl], by simp, by simp, .inl ⟨.inl (by simp), by simp⟩⟩
  | slept b t0 hw =>
    obtain rfl : Event.delay Config.busyPollMs = e := hev (by simp [State.itemEvent, hw])
    exact .inl ⟨by simp, by simp, by simp, .inl ⟨.inl (by simp), by simp⟩⟩

/-! ### The run -/

/-- The entries of an operation none of whose events has failed. -/
def goodEntries (op : Op) (es : List Entry) : Prop := ∀ e ∈ es, e.pos.op = op ∧ e.outcome ≠ .fail

/-- The handles are those that the entries account for; those of SEND_IMAGE change none (R56, R57). -/
structure HandlesKept (s : State) (op : Op) (es : List Entry) (held : Line → Bool) (isOpen : Bool) : Prop where
  accounted : paramsOk s.params = true →
    (∀ l, held l = es.foldl (heldAfter (s.lineNumber l)) (s.exported.get l)) ∧ isOpen = es.foldl openAfter s.busOpen
  same : op = .sendImage → held = s.exported.get ∧ isOpen = s.busOpen

/-- REFRESH stands among the entries. -/
def refreshIssued (es : List Entry) : Prop := ∃ e ∈ es, e.pos = refreshPos ∧ e.event = .busWrite [0x12, 0x12]

/-- Nothing has failed so far. -/
structure Going (s : State) (op : Op) (es : List Entry) (u : State) : Prop where
  seq : u.seq.op = op
  error : u.error = noError
  cleanupErr : u.cleanupErr = false
  session : u.session = s.session
  good : goodEntries op es
  tests : ∀ k, actionAt u.seq = some (.test k) → ∀ k', u.passes k' = s.passes k'
  handles : HandlesKept s op es u.exported.get u.busOpen
  refreshed : op = .sendImage → refreshPos.rank < u.seq.rank → refreshIssued es

/-- The operation has ended, and nothing has failed. -/
structure Finished (s : State) (op : Op) (es : List Entry) (u : State) : Prop where
  seq : u.seq = noOperation
  error : u.error = noError
  cleanupErr : u.cleanupErr = false
  session : u.session = op.closingSession s.session
  good : goodEntries op es
  refreshed : op = .sendImage → refreshIssued es

/-- A test of the operation did not hold. -/
structure Stopped (s : State) (op : Op) (u : State) : Prop where
  seq : u.seq = noOperation
  error : u.error.code.isHardware = false
  fails : ∃ c k, c.op = op ∧ actionAt c = some (.test k) ∧ s.passes k = false

/-- The error that the event `f` of an operation raises: it failed, or it is the poll at which a busy wait timed out (R92, R94). -/
def raisedBy (op : Op) (f : Entry) : ErrorReg :=
  { code := if f.outcome = .fail then .hardwareIo else .hardwareTimeout, phase := op.phase,
    step := BitVec.ofNat 8 f.pos.step, item := BitVec.ofNat 8 f.pos.item }

/-- The event `f` has raised an error after the entries `pre`, and CLEANUP has made the entries `post` since (R104, R122). -/
structure Cleaning (s : State) (op : Op) (pre : List Entry) (f : Entry) (post : List Entry) (u : State) : Prop where
  good : goodEntries op pre
  pos : f.pos.op = op
  raises : f.outcome = .fail ∨ (op = .sendImage ∧ isGet f = true)
  cleanup : ∀ e ∈ post, e.pos.op = .cleanup
  shutdown : ∃ held isOpen, HandlesKept s op pre held isOpen ∧
    Shutdown .cleanup (cleanupEvents s.params.lines held isOpen) (raisedBy op f) post u

/-- What POWER_ON and SEND_IMAGE come to, with the entries they have made. -/
inductive HardwareRun (s : State) (op : Op) (es : List Entry) (u : State) : Prop where
  | going (h : Going s op es u)
  | finished (h : Finished s op es u)
  | stopped (h : Stopped s op u)
  | cleaning (pre : List Entry) (f : Entry) (post : List Entry) (hes : es = pre ++ f :: post) (h : Cleaning s op pre f post u)

/-- CLEANUP begins with all of its shutdown ahead (R104). -/
theorem shutdown_begins {u : State} (hseq : u.seq = { op := .cleanup, step := 1, item := 0 }) (hc : u.cleanupErr = false) :
    Shutdown .cleanup (cleanupEvents u.params.lines u.exported.get u.busOpen) u.error [] u := by
  refine ⟨.inl (by rw [hseq]), fun _ h0 => (by rw [hseq] at h0; cases h0), ?_,
    fun _ _ => ⟨⟨fun h => (by cases h), fun _ => hc⟩, rfl, by simp⟩, fun h => ?_, ⟨fun h => (by cases h), fun _ => rfl⟩,
    fun l hl => ?_, fun h => (by rw [hseq] at h; cases h)⟩
  · rw [State.eventsLeft, State.countsHeld, State.countsOpen, hseq, ← eventsAhead_cleanup]
    rfl
  · rw [hseq] at h
    rcases h with h | h
    · cases h
    · simp at h
  · rw [hseq] at hl
    exact absurd (unexportLine_ahead l).2 hl

theorem HandlesKept.issued {s u v : State} {op : Op} {es : List Entry} {a : Action} {e : Event}
    (h : HandlesKept s op es u.exported.get u.busOpen) (hu : u.hostSide = s.hostSide) (ho : u.seq.op = op)
    (ha : actionAt u.seq = some a) (hi : ItemMove u a v) (he : u.itemEvent a = some e) :
    HandlesKept s op (es ++ [u.entry e]) v.exported.get v.busOpen := by
  have hp : u.params = s.params := congrArg HostSide.params hu
  have hnum (l : Line) : u.lineNumber l = s.lineNumber l := by rw [State.lineNumber, State.lineNumber, hp]
  refine ⟨fun hok => ?_, fun hsend => ?_⟩
  · obtain ⟨h1, h2⟩ := h.accounted hok
    obtain ⟨h3, h4⟩ := itemMove_accounted (hp ▸ hok) hi he
    refine ⟨fun l => ?_, ?_⟩
    · rw [h3, h1, hnum, List.foldl_append]; rfl
    · rw [h4, h2, List.foldl_append]; rfl
  · obtain ⟨h1, h2⟩ := h.same hsend
    obtain ⟨h3, h4⟩ := itemMove_keepsHandles (keepsHandles_of_action ha (.inl (ho.trans hsend))) hi
    exact ⟨by rw [h3, h1], by rw [h4, h2]⟩

/-- An event of an operation that has gone well so far: it goes on, or ends well, or starts CLEANUP. -/
theorem Going.issued {s u v : State} {op : Op} {es : List Entry} {a : Action} {e : Event} (hop : op.raises)
    (h : Going s op es u) (hu : u.hostSide = s.hostSide) (ha : actionAt u.seq = some a) (hi : ItemMove u a v)
    (he : u.itemEvent a = some e) : HardwareRun s op (es ++ [u.entry e]) v := by
  have ho := h.seq
  subst ho
  have hhandles := h.handles.issued hu rfl ha hi he
  have hnum : v.hostSide = s.hostSide := (itemMove_hostSide hi).trans hu
  rcases itemMove_raising hi hop ha he with ⟨hok, herr, hcerr, hland⟩ | ⟨code, hcode, hseq, hcerr, hexp, hbus, herr⟩
  · have hgood : goodEntries u.seq.op (es ++ [u.entry e]) := by
      intro x hx
      rcases List.mem_append.1 hx with hm | hm
      · exact h.good x hm
      · obtain rfl := List.mem_singleton.1 hm
        exact ⟨rfl, hok⟩
    have hrefresh (hsend : u.seq.op = .sendImage) (hpast : refreshPos.rank < u.seq.rank ∨ u.seq = refreshPos) :
        refreshIssued (es ++ [u.entry e]) := by
      rcases hpast with hlt | hat
      · obtain ⟨x, hx, hx'⟩ := h.refreshed hsend hlt
        exact ⟨x, List.mem_append_left _ hx, hx'⟩
      · obtain rfl := (refreshPos_iff ha).1 hat
        cases he
        exact ⟨u.entry _, List.mem_append_right _ (List.mem_singleton.2 rfl), hat, rfl⟩
    rcases hland with ⟨hseq, hs⟩ | ⟨hn, hseq, hs⟩
    · refine .going ⟨?_, herr.trans h.error, hcerr.trans h.cleanupErr, hs.trans h.session, hgood, fun k hk => ?_, hhandles,
        fun hsend hlt => hrefresh hsend ?_⟩
      · rcases hseq with hseq | hseq
        · rw [hseq]
        · exact (nextItem_spec hseq).2
      · rcases hseq with hseq | hseq
        · rw [hseq, ha] at hk
          cases hk
          cases he
        · obtain ⟨k', rfl⟩ := (raising_tests hop ha).2 _ _ hseq hk
          cases he
      · rcases hseq with hseq | hseq
        · exact .inl (hseq ▸ hlt)
        · exact (past_refresh hsend ha).1 _ hseq hlt
    · exact .finished ⟨hseq, herr.trans h.error, hcerr.trans h.cleanupErr, by rw [hs, h.session], hgood,
        fun hsend => hrefresh hsend (.inl ((past_refresh hsend ha).2 hn))⟩
  · refine .cleaning es (u.entry e) [] rfl ⟨h.good, rfl, ?_, by simp, v.exported.get, v.busOpen, ?_, ?_⟩
    · exact hcode.imp And.right fun ⟨_, _, hg, hsend⟩ => ⟨hsend, hg⟩
    · rw [hexp, hbus]; exact h.handles
    · have hbegin := shutdown_begins hseq (hcerr.trans h.cleanupErr)
      have hraised : v.error = raisedBy u.seq.op (u.entry e) := by
        rw [herr, raisedBy]
        rcases hcode with ⟨rfl, hf⟩ | ⟨rfl, hf, -⟩
        · rw [if_pos hf]; rfl
        · rw [if_neg hf]; rfl
      rw [← hraised, ← show v.params = s.params from congrArg HostSide.params hnum]
      exact hbegin

/-- A test of an operation that has gone well so far: it holds and the operation goes on, or it stops the operation. -/
theorem Going.tested {s u v : State} {op : Op} {es : List Entry} {k : Check} (hop : op.raises) (h : Going s op es u)
    (ha : actionAt u.seq = some (.test k)) (hi : ItemMove u (.test k) v) : HardwareRun s op es v := by
  obtain rfl := h.seq
  have hpasses := h.tests k ha
  cases hi with
  | passed _ hk =>
    obtain ⟨d, hn⟩ := (raising_tests hop ha).1 k rfl
    rw [advance_of_next hn]
    have hsame (k' : Check) : State.passes k' { u with seq := d, wait := .idle } = u.passes k' := by cases k' <;> rfl
    refine .going ⟨(nextItem_spec hn).2, h.error, h.cleanupErr, h.session, h.good,
      fun _ _ k' => (hsame k').trans (hpasses k'), h.handles, fun hsend hlt => ?_⟩
    rcases (past_refresh hsend ha).1 d hn hlt with hlt' | hat
    · exact h.refreshed hsend hlt'
    · cases (refreshPos_iff ha).1 hat
  | rejected _ hk =>
    have hend : u.raiseHere k.error = (u.setError k.error u.seq.op.phase u.seq.step u.seq.item).endOperation := by
      unfold State.raiseHere State.raise
      rw [check_error_not_hardware]
      rfl
    rw [hend]
    exact .stopped ⟨rfl, check_error_not_hardware k, u.seq, k, rfl, ha, (hpasses k).symm.trans hk⟩
  | done _ e he => cases he
  | failed _ e he => cases he

/-- The cursor stands at an item of CLEANUP while it runs. -/
theorem Cleaning.op_cleanup {s u : State} {op : Op} {pre post : List Entry} {f : Entry} {a : Action}
    (h : Cleaning s op pre f post u) (ha : actionAt u.seq = some a) : u.seq.op = .cleanup := by
  obtain ⟨_, _, -, hsh⟩ := h.shutdown
  exact hsh.seq.resolve_right fun hn => by rw [hn] at ha; cases ha

theorem keptByItems_hardwareRun (s : State) {op : Op} (hop : op.raises) : KeptByItems s (HardwareRun s op) := by
  have rests {u : State} {a : Action} (ha : actionAt u.seq = some a) (hn : u.seq = noOperation) : False := by
    rw [hn] at ha; cases ha
  refine ⟨fun es u a _ ha hc hn h => ?_, fun es u v k _ ha hi h => ?_, fun es u v a e hu ha hh hi he h => ?_⟩
  · cases h with
    | going h => rw [h.seq] at hc; rcases hop with rfl | rfl <;> cases hc
    | finished h => exact (rests ha h.seq).elim
    | stopped h => exact (rests ha h.seq).elim
    | cleaning pre f post hes h =>
      obtain ⟨held, isOpen, hk, hsh⟩ := h.shutdown
      exact .cleaning pre f post hes { h with shutdown := ⟨held, isOpen, hk, hsh.skipped ha hc hn⟩ }
  · cases h with
    | going h => exact h.tested hop ha hi
    | finished h => exact (rests ha h.seq).elim
    | stopped h => exact (rests ha h.seq).elim
    | cleaning pre f post hes h =>
      obtain ⟨held, isOpen, hk, hsh⟩ := h.shutdown
      exact .cleaning pre f post hes { h with shutdown := ⟨held, isOpen, hk, hsh.tested (.inr rfl) ha hi⟩ }
  · cases h with
    | going h => exact h.issued hop hu ha hi he
    | finished h => exact (rests ha h.seq).elim
    | stopped h => exact (rests ha h.seq).elim
    | cleaning pre f post hes h =>
      obtain ⟨held, isOpen, hk, hsh⟩ := h.shutdown
      refine .cleaning pre f (post ++ [u.entry e]) (by simp [hes]) { h with
        cleanup := fun x hx => ?_, shutdown := ⟨held, isOpen, hk, hsh.issued (.inr rfl) ha hh hi he⟩ }
      rcases List.mem_append.1 hx with hm | hm
      · exact h.cleanup x hm
      · obtain rfl := List.mem_singleton.1 hm
        exact h.op_cleanup ha

theorem going_accepted {op : Op} (hop : op.raises) (s : State) : Going s op [] (s.acceptCommand op op.firstStep) := by
  refine ⟨rfl, rfl, rfl, rfl, by simp [goodEntries], fun _ _ k => ?_, ⟨fun _ => ⟨fun _ => rfl, rfl⟩, fun _ => ⟨rfl, rfl⟩⟩,
    fun hsend hlt => ?_⟩
  · cases k <;> rfl
  · subst hsend
    exact absurd hlt (show ¬ refreshPos.rank < Cursor.rank { op := .sendImage, step := 1, item := 0 } by decide)

/-- What an accepted POWER_ON or SEND_IMAGE has come to at rest. -/
theorem hostCommand_raising {s : State} {op : Op} (hop : op.raises) (hb : s.busy = false) (hi : s.inputs = []) :
    (s.hostCommand op).atRest ∧ HardwareRun s op (newEntries s (s.hostCommand op)) (s.hostCommand op) := by
  have hop' : op = .powerOn ∨ op = .sendImage ∨ op = .powerOff := hop.imp_right .inl
  have h := (keptByItems_hardwareRun s hop).hostCommand hop' hb hi (.going (going_accepted hop s))
  exact ⟨h.1, h.2.2⟩

/-- CLEANUP at rest: SESSION is cleared, its events are all those of what was held, and its failures are on record (R104). -/
theorem Cleaning.at_rest {s u : State} {op : Op} {pre post : List Entry} {f : Entry} (h : Cleaning s op pre f post u)
    (hu : u.params = s.params) (hr : u.seq = noOperation) :
    u.session = false ∧ u.error = raisedBy op f ∧ u.cleanupErr = cleanupFailed s.params.busyAssertedLevel post ∧
      ∃ held isOpen, HandlesKept s op pre held isOpen ∧
        outsideWait .cleanup post = cleanupEvents s.params.lines held isOpen := by
  obtain ⟨held, isOpen, hk, hsh⟩ := h.shutdown
  have hnone : u.eventsLeft = [] := by rw [State.eventsLeft, hr]; rfl
  have hcounted := hsh.counted
  rw [hnone, List.append_nil] at hcounted
  have hrec := (hsh.late (.inl hr)).2 rfl
  rw [State.targetLevel, hu] at hrec
  exact ⟨hsh.closed hr, hsh.other.2 rfl, hrec, held, isOpen, hk, hcounted⟩

theorem hostCommand_params (op : Op) (s : State) : (s.hostCommand op).params = s.params :=
  congrArg HostSide.params (hostCommand_hostSide op s)

/-- A POWER_ON that has brought the session up holds everything (R24). -/
theorem hostCommand_powerOn_holds {s : State} (hb : s.busy = false) (hs : s.session = false) (hi : s.inputs = [])
    (ht : (s.hostCommand .powerOn).session = true) : holdsAll (s.hostCommand .powerOn) := by
  have hrun : s.hostCommand .powerOn = State.run s.moveBound (s.acceptCommand .powerOn 0) := if_neg (by simp [hb])
  have hrest : (s.hostCommand .powerOn).atRest := hrun ▸ run_accepted_atRest (.inr (.inl rfl)) hi
  have hstart : sessionInvariant (s.acceptCommand .powerOn 0) :=
    accepted_sessionInvariant (s := { s with seq := noOperation }) (.inr (.inl rfl)) hb
      (sessionInvariant_of_rest ⟨hb, rfl⟩ fun h => by rw [show s.session = true from h] at hs; cases hs)
  have hinv : sessionInvariant (s.hostCommand .powerOn) := by
    rw [hrun]
    refine (run_induction (P := fun u => u.inputs = [] ∧ sessionInvariant u)
      (fun u h => by rw [tick_of_noInputs h.1]; exact h) (fun u hbusy h => ?_) _ (s := s.acceptCommand .powerOn 0) ⟨hi, hstart⟩).2
    exact ⟨(move_inputs u).1.trans h.1, move_sessionInvariant hbusy h.2⟩
  exact hinv.2.2.1 ht (by simp [hrest.2, noOperation]) (by simp [hrest.2, noOperation])

/-- Settles O29: nothing has failed and POWER_ON has ended, or one event has failed and CLEANUP has. -/
theorem powerOnIsAtomicOrFailed : Obligations.PowerOnIsAtomicOrFailed := by
  intro s hb hs hi hg
  obtain ⟨⟨hbusy, hseq⟩, hrun⟩ := hostCommand_raising (op := .powerOn) (.inl rfl) hb hi
  refine ⟨_, rfl, hbusy, ?_⟩
  cases hrun with
  | going h => have := h.seq; rw [hseq] at this; cases this
  | finished h =>
    exact .inl ⟨h.session, h.error, h.cleanupErr, hostCommand_powerOn_holds hb hs hi h.session, fun e he => (h.good e he).2⟩
  | stopped h =>
    obtain ⟨c, k, hc, ha, hk⟩ := h.fails
    have hkind := of_script (op := .powerOn) (Q := fun _ a => a = .test k → k = .sessionIdle ∨ k = .panelGeometry) (by
      cases k <;> decide) hc ha rfl
    rcases hkind with rfl | rfl
    · simp [State.passes, hs] at hk
    · rw [State.passes, hg] at hk; cases hk
  | cleaning pre f post hes h =>
    obtain ⟨hclosed, herr, hcerr, held, isOpen, hk, hev⟩ := h.at_rest (hostCommand_params ..) hseq
    have hf : f.outcome = .fail := h.raises.resolve_right fun h => by cases h.1
    refine .inr ⟨hclosed, pre, post, f, hes, h.good, h.pos, hf, h.cleanup, ?_, hcerr, fun hp => ?_⟩
    · rw [herr, raisedBy, if_pos hf]; rfl
    · obtain ⟨h1, h2⟩ := hk.accounted hp
      rw [hev, ← h2, show held = _ from funext h1]

/-! ### SEND_IMAGE -/

/-- SEND_IMAGE has not come to REFRESH, or stands at it (R97). -/
def Cursor.beforeRefresh (c : Cursor) : Bool := c.op == .sendImage && Nat.ble c.rank refreshPos.rank

/-- LAST_REFRESH and the entries so far: the time of the REFRESH entry, or as before while there is none (R33, R119). -/
structure RefreshKept (s : State) (es : List Entry) (u : State) : Prop where
  ops : u.seq.op = .sendImage ∨ u.seq.op = .cleanup ∨ u.seq = noOperation
  before : u.seq.beforeRefresh = true → ∀ e ∈ es, e.pos ≠ refreshPos
  stamped : ∀ e ∈ es, e.pos = refreshPos → u.lastRefresh = BitVec.ofNat 64 e.time ∧ u.lastRefreshValid = true
  unstamped : (∀ e ∈ es, e.pos ≠ refreshPos) → u.lastRefresh = s.lastRefresh ∧ u.lastRefreshValid = s.lastRefreshValid

/-- A move that lands before REFRESH was before it, and not at it. -/
theorem beforeRefresh_of_landing {u v : State} {a : Action} (h : Landing u a v) (ha : actionAt u.seq = some a)
    (hv : v.seq.beforeRefresh = true) : u.seq.beforeRefresh = true ∧ (u.seq = refreshPos → a.waits = true) := by
  cases h with
  | stays hw hseq => exact ⟨hseq ▸ hv, fun _ => hw⟩
  | next d hn _ hseq =>
    have table := of_scripts (Q := fun c _ => (nextItem c).any Cursor.beforeRefresh = true → c.beforeRefresh = true ∧ c ≠ refreshPos)
      (by decide) ha (by rw [hn]; exact hseq ▸ hv)
    exact ⟨table.1, fun h => absurd h table.2⟩
  | closes _ _ hseq => rw [hseq] at hv; cases hv
  | stops _ _ _ hseq => rw [hseq] at hv; cases hv
  | cleansUp _ hseq => rw [hseq] at hv; cases hv
  | skipsWait ho _ hseq => rw [hseq] at hv; rcases ho with ho | ho <;> rw [ho] at hv <;> cases hv

theorem landing_sendImage_ops {u v : State} {a : Action} (h : Landing u a v)
    (ho : u.seq.op = .sendImage ∨ u.seq.op = .cleanup) : v.seq.op = .sendImage ∨ v.seq.op = .cleanup ∨ v.seq = noOperation := by
  have same (h : v.seq.op = u.seq.op) : v.seq.op = .sendImage ∨ v.seq.op = .cleanup ∨ v.seq = noOperation := by
    rw [h]; exact ho.imp_right .inl
  cases h with
  | stays _ hseq => exact same (by rw [hseq])
  | next d hn _ hseq => exact same (by rw [hseq, (nextItem_spec hn).2])
  | closes _ _ hseq => exact .inr (.inr hseq)
  | stops _ _ _ hseq => exact .inr (.inr hseq)
  | cleansUp _ hseq => exact .inr (.inl (by rw [hseq]))
  | skipsWait _ _ hseq => exact same (by rw [hseq])

theorem keptByItems_refreshKept (s : State) : KeptByItems s (RefreshKept s) := by
  have running {es : List Entry} {u : State} {a : Action} (ha : actionAt u.seq = some a) (h : RefreshKept s es u) :
      u.seq.op = .sendImage ∨ u.seq.op = .cleanup :=
    h.ops.imp_right fun h => h.resolve_right fun hn => by rw [hn] at ha; cases ha
  have quiet {es : List Entry} {u v : State} {a : Action} (ha : actionAt u.seq = some a) (hl : Landing u a v)
      (hr : v.lastRefresh = u.lastRefresh ∧ v.lastRefreshValid = u.lastRefreshValid) (h : RefreshKept s es u) :
      RefreshKept s es v := by
    refine ⟨landing_sendImage_ops hl (running ha h), fun hv => h.before (beforeRefresh_of_landing hl ha hv).1, ?_, ?_⟩
    · rw [hr.1, hr.2]; exact h.stamped
    · rw [hr.1, hr.2]; exact h.unstamped
  refine ⟨fun es u a _ ha hc _ h => quiet ha (skipped_landing ha hc) (by simp) h,
    fun es u v k _ ha hi h => quiet ha (itemMove_landing hi ha) ((itemMove_refresh hi).1 (by simp)) h,
    fun es u v a e _ ha hh hi he h => ?_⟩
  have hl := itemMove_landing hi ha
  have split {Q : Entry → Prop} : (∀ x ∈ es ++ [u.entry e], Q x) ↔ (∀ x ∈ es, Q x) ∧ Q (u.entry e) := by
    simp [or_imp, forall_and]
  by_cases hat : u.seq = refreshPos
  · obtain rfl := (refreshPos_iff ha).1 hat
    obtain ⟨h1, h2⟩ := (itemMove_refresh hi).2 rfl
    have hearlier := h.before (by rw [hat]; rfl)
    refine ⟨landing_sendImage_ops hl (running ha h), fun hv => ?_, split.2 ⟨fun x hx hp => absurd hp (hearlier x hx), fun _ => ?_⟩,
      fun hno => absurd hat (split.1 hno).2⟩
    · have := (beforeRefresh_of_landing hl ha hv).2 hat
      cases this
    · rw [h1, h2]; exact ⟨rfl, rfl⟩
  · obtain ⟨h1, h2⟩ := (itemMove_refresh hi).1 (mt (refreshPos_iff ha).2 hat)
    refine ⟨landing_sendImage_ops hl (running ha h), fun hv => split.2 ⟨h.before (beforeRefresh_of_landing hl ha hv).1, hat⟩,
      split.2 ⟨?_, fun hp => absurd hp hat⟩, fun hno => ?_⟩
    · rw [h1, h2]; exact h.stamped
    · rw [h1, h2]; exact h.unstamped (split.1 hno).1

/-- Settles O32: nothing has failed and SEND_IMAGE has ended, or one event has raised its error and CLEANUP has ended. -/
theorem sendImageSucceedsOrEndsIdle : Obligations.SendImageSucceedsOrEndsIdle := by
  intro s hb hs hi hf hw hh hguard
  obtain ⟨⟨hbusy, hseq⟩, hrun⟩ := hostCommand_raising (op := .sendImage) (.inr rfl) hb hi
  have hrefresh : RefreshKept s (newEntries s (s.hostCommand .sendImage)) (s.hostCommand .sendImage) :=
    ((keptByItems_refreshKept s).hostCommand (op := .sendImage) (.inr (.inl rfl)) hb hi
      ⟨.inl rfl, by simp, by simp, fun _ => ⟨rfl, rfl⟩⟩).2.2
  refine ⟨_, rfl, hbusy, hrefresh.stamped, hrefresh.unstamped, ?_⟩
  cases hrun with
  | going h => have := h.seq; rw [hseq] at this; cases this
  | finished h =>
    exact .inl ⟨h.session.trans hs, h.error, h.cleanupErr, fun e he => (h.good e he).2, h.refreshed rfl⟩
  | stopped h =>
    obtain ⟨c, k, hc, ha, hk⟩ := h.fails
    have hkind := of_script (op := .sendImage) (Q := fun _ a => a = .test k → k = .sessionActive ∨ k = .frameHeld ∨
      k = .frameMatches ∨ k = .refreshAllowed) (by cases k <;> decide) hc ha rfl
    rcases hkind with rfl | rfl | rfl | rfl
    · rw [State.passes, hs] at hk; cases hk
    · rw [State.passes, hf] at hk; cases hk
    · simp [State.passes, hw, hh] at hk
    · have hopen : s.refreshAllowed = true := by
        rcases hguard with hv | hlate
        · rw [State.refreshAllowed, hv]; rfl
        · rw [State.refreshAllowed, Bool.or_eq_true, decide_eq_true_eq]; exact .inr hlate
      rw [State.passes, hopen] at hk
      cases hk
  | cleaning pre f post hes h =>
    obtain ⟨hclosed, herr, hcerr, held, isOpen, hk, hev⟩ := h.at_rest (hostCommand_params ..) hseq
    obtain ⟨h1, h2⟩ := hk.same rfl
    exact .inr ⟨hclosed, pre, post, f, hes, h.good, h.pos, h.raises.imp_right And.right, h.cleanup, herr, hcerr,
      by rw [hev, h1, h2]⟩

/-! ### The lines released -/

/-- Settles O36: a session ends by a shutdown, and at rest no item of it is ahead. -/
theorem linesReleasedOnEveryExit : Obligations.LinesReleasedOnEveryExit := by
  intro s t i hb hi hx hcase
  have raising {op : Op} (hop : op.raises) (ht : t = s.hostCommand op) (hhw : t.error.code.isHardware = true) :
      t.session = false ∧ ∀ l, t.exported.get l = true →
        ∃ e ∈ newEntries s t, e.event = .unexportLine (s.lineNumber l) ∧ e.outcome = .fail := by
    subst ht
    obtain ⟨⟨hbusy, hseq⟩, hrun⟩ := hostCommand_raising hop hb hi
    have hnum (l : Line) : (s.hostCommand op).lineNumber l = s.lineNumber l := by
      rw [State.lineNumber, State.lineNumber, hostCommand_params]
    cases hrun with
    | going h => have := h.seq; rw [hseq] at this; rcases hop with rfl | rfl <;> cases this
    | finished h => rw [h.error] at hhw; cases hhw
    | stopped h => rw [h.error] at hhw; cases hhw
    | cleaning pre f post hes h =>
      obtain ⟨held, isOpen, -, hsh⟩ := h.shutdown
      refine ⟨hsh.closed hseq, fun l hl => ?_⟩
      obtain ⟨e, he, hev⟩ := hsh.released l (by rw [hseq]; simp [Cursor.ahead, Op.script, Op.table, noOperation]) hl
      exact ⟨e, by rw [hes]; simp [he], hnum l ▸ hev⟩
  rcases hcase with ⟨rfl, hs⟩ | ⟨rfl | rfl, hhw⟩
  · cases hx
    obtain ⟨⟨hbusy, hseq⟩, hsh⟩ := hostCommand_powerOff hb hs hi
    have hnum (l : Line) : (s.hostCommand .powerOff).lineNumber l = s.lineNumber l := by
      rw [State.lineNumber, State.lineNumber, hostCommand_params]
    refine ⟨hsh.closed hseq, fun l hl => ?_⟩
    obtain ⟨e, he, hev⟩ := hsh.released l (by rw [hseq]; simp [Cursor.ahead, Op.script, Op.table, noOperation]) hl
    exact ⟨e, he, hnum l ▸ hev⟩
  · exact raising (op := .powerOn) (.inl rfl) (Host.Outcome.next.inj hx).symm hhw
  · exact raising (op := .sendImage) (.inr rfl) (Host.Outcome.next.inj hx).symm hhw

end Sys2Proof.Machine
end

section
/-! PROOFS. A busy wait that is never answered, under ideal timing (42_panel_sequencer.md R94, R103, R129). Settles O39. -/

namespace Sys2Proof.Machine

theorem emit_env (e : Event) (s : State) : (s.emit e).env = s.env.tail := by
  unfold State.emit State.takeAnswer
  cases h : s.env <;> simp

/-- An answer of the environment: no time beyond the minimum, no failure, and the busy line not at `target` (R129). -/
def unanswered (target : Bool) (a : Answer) : Prop := a.ok = true ∧ a.ms = 0 ∧ a.level ≠ target

/-- The answer in hand is one of those to come. -/
theorem answer_mem {s : State} (h : s.env ≠ []) : s.answer ∈ s.env := by
  unfold State.answer
  cases hs : s.env with
  | nil => exact absurd hs h
  | cons a as => simp

/-- The busy wait of POWER_OFF after `k` polls (R94): each was followed by a delay of exactly 5 ms, but the last while it sleeps. -/
structure WaitingFor (s : State) (k : Nat) (u : State) : Prop where
  error : u.error = noError
  env : ∀ a ∈ u.env, a ∈ s.env
  awake : (∀ t0, u.wait ≠ .sleep t0) → u.now = u.waitStart + 5 * k ∧ (k = 0 ∨ 5 * (k - 1) < s.busyTimeout.toNat) ∧
    2 * pollBound s.busyTimeout.toNat + 14 ≤ u.env.length + 2 * k + 1
  asleep : ∀ t0, u.wait = .sleep t0 → u.now + 5 = t0 + 5 * k ∧ 1 ≤ k ∧ 5 * (k - 1) < s.busyTimeout.toNat ∧
    2 * pollBound s.busyTimeout.toNat + 14 ≤ u.env.length + 2 * k

/-- POWER_OFF while its busy wait is not answered: before the wait, in it, and after its timeout. -/
structure Unanswered (s : State) (es : List Entry) (u : State) : Prop where
  seq : u.seq.op = .powerOff ∨ u.seq = noOperation
  before : u.seq.op = .powerOff → u.seq.step = 0 ∨ u.seq = { op := .powerOff, step := 1, item := 0 } →
    es = [] ∧ u.env = s.env ∧ u.error = noError ∧ u.session = true
  waiting : u.seq = shutdownWait .powerOff → WaitingFor s (es.countP isGet) u
  ended : u.seq = noOperation ∨ 2 ≤ u.seq.step → u.error = notedAt .hardwareTimeout (shutdownWait .powerOff) ∧
    es.countP isGet = pollBound s.busyTimeout.toNat + 1

/-- The items of POWER_OFF's first two steps (R101). -/
theorem powerOff_first {c : Cursor} {a : Action} (ho : c.op = .powerOff) (ha : actionAt c = some a) :
    (c = { op := .powerOff, step := 0, item := 0 } ∧ a = .test .sessionActive) ∨
      (c = { op := .powerOff, step := 1, item := 0 } ∧ a = .wire .deepSleep) ∨
      (c = shutdownWait .powerOff ∧ a = .waitBusy true) ∨ (2 ≤ c.step ∧ a.waits = false) :=
  of_script (op := .powerOff) (Q := fun c a => (c = { op := .powerOff, step := 0, item := 0 } ∧ a = .test .sessionActive) ∨
    (c = { op := .powerOff, step := 1, item := 0 } ∧ a = .wire .deepSleep) ∨
    (c = shutdownWait .powerOff ∧ a = .waitBusy true) ∨ (2 ≤ c.step ∧ a.waits = false)) (by decide) ho ha

/-- A poll or a delay of the wait: the next of either, or the timeout after ceil(T/5) + 1 polls. -/
theorem WaitingFor.move {s u v : State} {k : Nat} {e : Event} (h : WaitingFor s k u) (hu : u.hostSide = s.hostSide)
    (hall : ∀ a ∈ s.env, unanswered s.params.busyAssertedLevel a) (hat : u.seq = shutdownWait .powerOff)
    (hi : ItemMove u (.waitBusy true) v) (he : u.itemEvent (.waitBusy true) = some e) :
    (v.seq = u.seq ∧ WaitingFor s (k + (isGet (u.entry e)).toNat) v) ∨
      (v.seq = { op := .powerOff, step := 2, item := 0 } ∧ isGet (u.entry e) = true ∧
        v.error = notedAt .hardwareTimeout (shutdownWait .powerOff) ∧ k = pollBound s.busyTimeout.toNat) := by
  have hT : u.busyTimeout = s.busyTimeout := congrArg HostSide.busyTimeout hu
  have hp : u.params = s.params := congrArg HostSide.params hu
  have hkP : k = 0 ∨ 5 * (k - 1) < s.busyTimeout.toNat → k ≤ pollBound s.busyTimeout.toNat := by unfold pollBound; omega
  have hne : u.env ≠ [] := fun hnil => by
    by_cases hsleep : ∃ t0, u.wait = .sleep t0
    · obtain ⟨t0, ht0⟩ := hsleep
      obtain ⟨-, -, hlt, hlen⟩ := h.asleep t0 ht0
      have := hkP (.inr hlt)
      rw [hnil, List.length_nil] at hlen
      omega
    · obtain ⟨-, hk, hlen⟩ := h.awake fun t0 ht0 => hsleep ⟨t0, ht0⟩
      have := hkP hk
      rw [hnil, List.length_nil] at hlen
      omega
  obtain ⟨hok, hms, hlevel⟩ := hall _ (h.env _ (answer_mem hne))
  have hlen : u.env.tail.length + 1 = u.env.length := by
    cases hc : u.env with
    | nil => exact absurd hc hne
    | cons => simp
  have henv : ∀ a ∈ u.env.tail, a ∈ s.env := fun a ha => h.env a (List.mem_of_mem_tail ha)
  have htarget : u.targetLevel true = s.params.busyAssertedLevel := by rw [State.targetLevel, hp]; rfl
  have hev {e' : Event} (h : u.itemEvent (.waitBusy true) = some e') : e' = e := Option.some.inj (h.symm.trans he)
  cases hi with
  | done _ e' he' hw => cases hw
  | failed _ e' he' hu hf => simp [outcomeOf_eq_fail_iff, hok] at hf
  | matched _ hw hl =>
    simp only [outcomeOf_get, hok, if_true, EventOutcome.okLevel.injEq] at hl
    exact absurd (hl.trans htarget) hlevel
  | timedOut _ hw hl hlate =>
    obtain rfl := hev (itemEvent_of_poll true hw)
    obtain ⟨hnow, hk, -⟩ := h.awake hw
    have hend : (u.emit (.get (u.lineNumber .busy))).failItem .hardwareTimeout = _ :=
      failItem_powerOff_first .hardwareTimeout (by simp [hat, shutdownWait]) (by simp [hat, shutdownWait])
    refine .inr ⟨by rw [hend], rfl, ?_, ?_⟩
    · rw [hend]
      dsimp only
      rw [State.emit_error, h.error, State.emit_seq, hat, if_pos (show noError.code = .none from rfl)]
      rfl
    · rw [hT, hms] at hlate
      unfold pollBound
      omega
  | polled _ hw hl hearly =>
    obtain rfl := hev (itemEvent_of_poll true hw)
    obtain ⟨hnow, hk, hlong⟩ := h.awake hw
    refine .inl ⟨by simp, by simp [h.error], ?_, fun hawake => absurd rfl (hawake u.waitStart), fun t0 ht0 => ?_⟩
    · show ∀ a ∈ (u.emit (.get (u.lineNumber .busy))).env, a ∈ s.env
      rw [emit_env]; exact henv
    · cases ht0
      show (u.emit (.get (u.lineNumber .busy))).now + 5 = u.waitStart + 5 * (k + 1) ∧ 1 ≤ k + 1 ∧
        5 * (k + 1 - 1) < s.busyTimeout.toNat ∧
        2 * pollBound s.busyTimeout.toNat + 14 ≤ (u.emit (.get (u.lineNumber .busy))).env.length + 2 * (k + 1)
      rw [State.emit_now, emit_env, hms, show (Event.get (u.lineNumber .busy)).minMs = 0 from rfl]
      rw [hT, hms] at hearly
      omega
  | slept _ t0 hw =>
    obtain rfl : Event.delay Config.busyPollMs = e := hev (by simp [State.itemEvent, hw])
    obtain ⟨hnow, hk1, hk, hlong⟩ := h.asleep t0 hw
    refine .inl ⟨by simp, by simp [h.error], ?_, fun _ => ?_, fun t1 ht1 => (by cases ht1)⟩
    · show ∀ a ∈ (u.emit (.delay Config.busyPollMs)).env, a ∈ s.env
      rw [emit_env]; exact henv
    · show (u.emit (.delay Config.busyPollMs)).now = t0 + 5 * k ∧ (k = 0 ∨ 5 * (k - 1) < s.busyTimeout.toNat) ∧
        2 * pollBound s.busyTimeout.toNat + 14 ≤ (u.emit (.delay Config.busyPollMs)).env.length + 2 * k + 1
      rw [State.emit_now, emit_env, hms, show (Event.delay Config.busyPollMs).minMs = 5 from rfl]
      omega

/-- The write of DEEP_SLEEP succeeds, and the busy wait is next, with no poll made (R101). -/
theorem waitingFor_begins {s u v : State} {e : Event} (hall : ∀ a ∈ s.env, unanswered s.params.busyAssertedLevel a)
    (hlong : 2 * pollBound s.busyTimeout.toNat + 14 ≤ s.env.length) (hat : u.seq = { op := .powerOff, step := 1, item := 0 })
    (hi : ItemMove u (.wire .deepSleep) v) (he : u.itemEvent (.wire .deepSleep) = some e) (henv : u.env = s.env)
    (herr : u.error = noError) : v.seq = shutdownWait .powerOff ∧ WaitingFor s 0 v := by
  have hne : u.env ≠ [] := fun h => by rw [henv] at h; simp [h] at hlong
  obtain ⟨hok, -, -⟩ := hall _ (henv ▸ answer_mem hne)
  have hv : v = (u.emit e).advance := by
    cases hi with
    | done _ e' he' => cases he.symm.trans he'; rfl
    | failed _ e' he' hu hf => simp [outcomeOf_eq_fail_iff, hok] at hf
  subst hv
  have hnext : nextItem (u.emit e).seq = some (shutdownWait .powerOff) := by rw [State.emit_seq, hat]; decide
  rw [advance_of_next hnext]
  refine ⟨rfl, ?_, fun a ha => ?_, fun _ => ⟨?_, .inl rfl, ?_⟩, fun t0 h => (by cases h)⟩
  · simpa using herr
  · exact henv ▸ List.mem_of_mem_tail (emit_env e u ▸ ha)
  · rfl
  · show 2 * pollBound s.busyTimeout.toNat + 14 ≤ (u.emit e).env.length + 0 + 1
    rw [emit_env, henv, List.length_tail]
    omega

/-! ### Each clause of `Unanswered` at the positions it speaks of -/

theorem unanswered_ended {s u : State} {es : List Entry} (hseq : u.seq = noOperation ∨ (u.seq.op = .powerOff ∧ 2 ≤ u.seq.step))
    (herr : u.error = notedAt .hardwareTimeout (shutdownWait .powerOff))
    (hn : es.countP isGet = pollBound s.busyTimeout.toNat + 1) : Unanswered s es u := by
  refine ⟨?_, fun ho h => ?_, fun h => ?_, fun _ => ⟨herr, hn⟩⟩
  · rcases hseq with h | ⟨h, -⟩
    · exact .inr h
    · exact .inl h
  · rcases hseq with hno | ⟨-, h2⟩
    · rw [hno] at ho; cases ho
    · rcases h with h | h
      · omega
      · rw [h] at h2; simp at h2
  · rcases hseq with hno | ⟨-, h2⟩
    · rw [hno] at h; cases h
    · rw [h] at h2; simp [shutdownWait] at h2

theorem unanswered_waiting {s u : State} {es : List Entry} (hseq : u.seq = shutdownWait .powerOff)
    (h : WaitingFor s (es.countP isGet) u) : Unanswered s es u := by
  refine ⟨.inl (by rw [hseq]; rfl), fun _ hb => ?_, fun _ => h, fun he => ?_⟩
  · rcases hb with hb | hb
    · rw [hseq] at hb; cases hb
    · rw [hseq] at hb; cases hb
  · rcases he with he | he
    · rw [hseq] at he; cases he
    · rw [hseq] at he; simp [shutdownWait] at he

theorem unanswered_before {s u : State} (hseq : u.seq = { op := .powerOff, step := 0, item := 0 } ∨
    u.seq = { op := .powerOff, step := 1, item := 0 }) (henv : u.env = s.env) (herr : u.error = noError)
    (hs : u.session = true) : Unanswered s [] u := by
  refine ⟨.inl ?_, fun _ _ => ⟨rfl, henv, herr, hs⟩, fun h => ?_, fun h => ?_⟩
  · rcases hseq with h | h
    · rw [h]
    · rw [h]
  · rcases hseq with h' | h'
    · rw [h'] at h; cases h
    · rw [h'] at h; cases h
  · rcases hseq with h' | h'
    · rw [h'] at h; simp [noOperation] at h
    · rw [h'] at h; simp [noOperation] at h

/-- After the wait the items of POWER_OFF poll nothing, and leave the error that is noted (R101). -/
theorem Unanswered.goesOn {s u v : State} {es : List Entry} {a : Action} {e : Event} (h : Unanswered s es u)
    (ho : u.seq.op = .powerOff) (h2 : 2 ≤ u.seq.step) (ha : actionAt u.seq = some a) (hi : ItemMove u a v)
    (he : u.itemEvent a = some e) : Unanswered s (es ++ [u.entry e]) v := by
  have hoff : u.seq.op.shutsDown := .inl ho
  obtain ⟨herr, hn⟩ := h.ended (.inr h2)
  obtain ⟨hfirst, -, -, -, hwait, -, htest⟩ := shutdown_steps hoff ha
  have hw : a.waits = false := Bool.eq_false_iff.2 fun hw => by have := hwait hw; omega
  have hget : isGet (u.entry e) = false := Bool.eq_false_iff.2 fun hg => by
    obtain ⟨⟨b, rfl⟩, -⟩ := wait_of_get he hg
    cases hw
  refine unanswered_ended ?_ ?_ (by rw [List.countP_append, hn]; simp [hget])
  · cases itemMove_landing hi ha with
    | stays hw' => rw [hw] at hw'; cases hw'
    | next d hn _ hseq =>
      have := hfirst d hn
      exact .inr (by rw [hseq, (nextItem_spec hn).2]; exact ⟨ho, by omega⟩)
    | closes _ _ hseq => exact .inl hseq
    | stops _ _ _ hseq => exact .inl hseq
    | cleansUp ho' => rw [ho] at ho'; simp at ho'
    | skipsWait _ h1 => omega
  · rcases itemMove_records hi hoff ha he with ⟨hsame, -⟩ | ⟨-, hr⟩ | ⟨hw', -⟩
    · rw [hsame, herr]
    · rw [(hr.powerOff ho).1, herr]; exact if_neg (by decide)
    · rw [hw] at hw'; cases hw'

theorem keptByItems_unanswered {s : State} (hall : ∀ a ∈ s.env, unanswered s.params.busyAssertedLevel a)
    (hlong : 2 * pollBound s.busyTimeout.toNat + 14 ≤ s.env.length) : KeptByItems s (Unanswered s) := by
  have running {u : State} {es : List Entry} {a : Action} (ha : actionAt u.seq = some a) (h : Unanswered s es u) :
      u.seq.op = .powerOff := h.seq.resolve_right fun hn => by rw [hn] at ha; cases ha
  refine ⟨fun es u a _ ha hc _ h => ?_, fun es u v k _ ha hi h => ?_, fun es u v a e hu ha hh hi he h => ?_⟩
  · rw [running ha h] at hc; cases hc
  · have ho := running ha h
    obtain ⟨-, -, -, -, -, -, htest⟩ := shutdown_steps (.inl ho) ha
    obtain ⟨h0, rfl⟩ := htest k rfl
    obtain ⟨rfl, henv, herr, hs⟩ := h.before ho (.inl h0)
    have hat : u.seq = { op := .powerOff, step := 0, item := 0 } := by
      rcases powerOff_first ho ha with ⟨hat, -⟩ | ⟨-, hk⟩ | ⟨-, hk⟩ | ⟨h2, -⟩
      · exact hat
      · cases hk
      · cases hk
      · omega
    have hv : v = u.advance := by
      cases hi with
      | passed => rfl
      | rejected _ hf => rw [show u.passes .sessionActive = u.session from rfl, hs] at hf; cases hf
      | done _ e he => cases he
      | failed _ e he => cases he
    have hnext : nextItem u.seq = some { op := .powerOff, step := 1, item := 0 } := by rw [hat]; decide
    rw [hv, advance_of_next hnext]
    exact unanswered_before (.inr rfl) henv herr hs
  · have ho := running ha h
    rcases powerOff_first ho ha with ⟨-, rfl⟩ | ⟨hat, rfl⟩ | ⟨hat, rfl⟩ | ⟨h2, -⟩
    · cases he
    · obtain ⟨rfl, henv, herr, -⟩ := h.before ho (.inr hat)
      obtain ⟨hseq, hwait⟩ := waitingFor_begins hall hlong hat hi he henv herr
      exact unanswered_waiting hseq (by cases he; exact hwait)
    · have hcount : (es ++ [u.entry e]).countP isGet = es.countP isGet + (isGet (u.entry e)).toNat := by
        rw [List.countP_append]
        cases hg : isGet (u.entry e) <;> simp [hg]
      rcases (h.waiting hat).move hu hall hat hi he with ⟨hseq, hwait⟩ | ⟨hseq, hg, herr, hk⟩
      · exact unanswered_waiting (hseq.trans hat) (hcount ▸ hwait)
      · exact unanswered_ended (.inr (by rw [hseq]; exact ⟨rfl, le_rfl⟩)) herr (by rw [hcount, hg, hk]; rfl)
    · exact h.goesOn ho h2 ha hi he

/-- Settles O39: at rest, the wait is over, after its ceil(T/5) + 1 polls. -/
theorem unansweredWaitTimesOut : Obligations.UnansweredWaitTimesOut := by
  intro s hb hs hi hall hlong
  have h0 : Unanswered s [] (s.acceptCommand .powerOff 0) := unanswered_before (.inl rfl) rfl rfl hs
  obtain ⟨⟨-, hseq⟩, -, h⟩ := (keptByItems_unanswered hall hlong).hostCommand (op := .powerOff) (.inr (.inr rfl)) hb hi h0
  obtain ⟨herr, hn⟩ := h.ended (.inl hseq)
  refine ⟨_, rfl, ?_, hn⟩
  rw [herr]
  decide

end Sys2Proof.Machine
end

section
/-! PROOFS. An operation of the controller in which every event succeeds and each busy wait is answered at once: its items one after
another, and the state at its end (42_panel_sequencer.md R95, R97, R101). Settles O26, O30 and O33. -/

namespace Sys2Proof.Machine

/-! ### An item that succeeds -/

/-- The answer `x` lets item `a` succeed at once: the event is Ok, and a poll reads the level waited for (R94). -/
def State.accepts (a : Action) (x : Answer) (s : State) : Prop :=
  x.ok = true ∧ ∀ b, a = .waitBusy b → x.level = s.targetLevel b

theorem answer_of_env {s : State} {x : Answer} {r : List Answer} (h : s.env = x :: r) : s.answer = x := by
  unfold State.answer; rw [h]

/-- The move at an item whose event succeeds. -/
theorem move_succeeds {s : State} {a : Action} {e : Event} (ha : actionAt s.seq = some a) (ho : s.seq.op ≠ .cleanup)
    (hw : s.wait = .idle) (he : s.itemEvent a = some e) (hx : s.accepts a s.answer) :
    s.move = (a.effect (s.issue a e)).advance := by
  obtain ⟨hok, hlevel⟩ := hx
  have hm := move_moved s
  generalize s.move = t at hm
  cases hm with
  | packed h => exact absurd h (op_ne_of_action ha).2
  | skipped _ _ hc => exact absurd hc ho
  | ended _ hn => rw [hn] at ha; cases ha
  | ran b _ hb _ hi =>
    obtain rfl : a = b := Option.some.inj (ha.symm.trans hb)
    cases hi with
    | passed => cases he
    | rejected => cases he
    | done _ _ he' => cases he.symm.trans he'; rfl
    | ignored l v hf => simp [outcomeOf_eq_fail_iff, hok] at hf
    | failed _ _ _ _ hf => simp [outcomeOf_eq_fail_iff, hok] at hf
    | matched b hwake => cases he.symm.trans (itemEvent_of_poll b hwake); rfl
    | timedOut b _ hl => simp [hok, hlevel b rfl] at hl
    | polled b _ hl => simp [hok, hlevel b rfl] at hl
    | slept b t0 hs => rw [hw] at hs; cases hs

/-! ### What a list of items does -/

/-- The state `s` with all that the items of an operation change taken from `u`. -/
def State.takenTo (s u : State) : State :=
  { s with
    seq := u.seq, wait := u.wait, env := u.env, now := u.now, trace := u.trace, exported := u.exported
    busOpen := u.busOpen, lastRefresh := u.lastRefresh, lastRefreshValid := u.lastRefreshValid }

/-- The entry of an event that has succeeded: only a Get's outcome has a value. -/
def Entry.succeeded (e : Entry) : Prop := e.outcome ≠ .fail ∧ (isGet e = false → e.outcome = .ok)

/-- The minimum time of an item's event (R128). -/
def Action.minMs : Action → Nat
  | .delay ms => ms
  | .test _ => 0
  | .exportLine _ => 0
  | .setDir _ _ => 0
  | .set _ _ => 0
  | .setBestEffort _ _ => 0
  | .unexportLine _ => 0
  | .busOpen => 0
  | .busConfig => 0
  | .busClose => 0
  | .wire _ => 0
  | .waitBusy _ => 0

def minMsOf (items : List Action) : Nat := (items.map Action.minMs).sum

theorem minMs_of_itemEvent {s : State} {a : Action} {e : Event} (hw : s.wait = .idle) (he : s.itemEvent a = some e) :
    e.minMs = a.minMs := by
  cases a with
  | test k => cases he
  | waitBusy b => rw [itemEvent_of_poll b (by simp [hw])] at he; cases he; rfl
  | _ => cases he; rfl

/-- From `s`, the items have been passed with the answers `as`, to `u`. -/
structure Along (s : State) (items : List Action) (as : List Answer) (u : State) : Prop where
  kept : u = s.takenTo u
  env : s.env = as ++ u.env
  now : u.now = s.now + minMsOf items + excessMs as
  trace : ∃ es, u.trace = s.trace ++ es ∧ (∀ e ∈ es, e.succeeded) ∧
    es.map Entry.event = items.filterMap fun a => s.itemEvent a
  exported : u.exported = (items.foldl (fun v a => a.effect v) s).exported
  busOpen : u.busOpen = (items.foldl (fun v a => a.effect v) s).busOpen
  unstamped : .wire .refresh ∉ items → u.lastRefresh = s.lastRefresh ∧ u.lastRefreshValid = s.lastRefreshValid
  stamped : ∀ pre post, items = pre ++ .wire .refresh :: post → .wire .refresh ∉ post →
    u.lastRefresh = BitVec.ofNat 64 (s.now + minMsOf pre + excessMs (as.take pre.length)) ∧ u.lastRefreshValid = true

theorem Along.nil (s : State) : Along s [] [] s :=
  ⟨rfl, rfl, rfl, ⟨[], (List.append_nil _).symm, by simp, rfl⟩, rfl, rfl, fun _ => ⟨rfl, rfl⟩, fun pre post h => by simp at h⟩

/-- The events of the items ahead stay the same. -/
theorem itemEvent_takenTo (a : Action) {u s : State} (hw : u.wait = s.wait) : (s.takenTo u).itemEvent a = s.itemEvent a := by
  cases a with
  | wire w => cases w <;> rfl
  | waitBusy b => simp [State.itemEvent, State.takenTo, hw]; rfl
  | _ => rfl

theorem effects_handles_congr (items : List Action) {s u : State} (he : u.exported = s.exported) (ho : u.busOpen = s.busOpen) :
    (items.foldl (fun v a => a.effect v) u).exported = (items.foldl (fun v a => a.effect v) s).exported ∧
      (items.foldl (fun v a => a.effect v) u).busOpen = (items.foldl (fun v a => a.effect v) s).busOpen := by
  induction items generalizing s u with
  | nil => exact ⟨he, ho⟩
  | cons a items ih =>
    obtain ⟨he', ho'⟩ := effect_handles_congr a he ho
    exact ih he' ho'

section Passed

variable {s : State} {a : Action} {e : Event} {x : Answer} {r : List Answer} (henv : s.env = x :: r)
include henv

/-- The state after an item that succeeded, at whatever position the cursor then stands. -/
theorem passed_kept (q : Cursor) : { a.effect (s.issue a e) with seq := q, wait := .idle } =
    s.takenTo { a.effect (s.issue a e) with seq := q, wait := .idle } := by
  unfold State.issue State.emit State.takeAnswer State.stampRefresh
  dsimp only
  rw [henv]
  split <;> cases a <;> rfl

theorem passed_params : (a.effect (s.issue a e)).params = s.params := by
  have h := congrArg State.params (passed_kept (a := a) (e := e) henv s.seq)
  exact h

theorem passed_env : (a.effect (s.issue a e)).env = r := by
  have hissue : (s.issue a e).env = r := by
    unfold State.issue
    split <;> rw [emit_env] <;> simp [State.stampRefresh, henv]
  cases a <;> exact hissue

theorem passed_now : (a.effect (s.issue a e)).now = s.now + e.minMs + x.ms := by
  rw [effect_now, issue_now, answer_of_env henv]

end Passed

theorem passed_refresh {s : State} {a : Action} {e : Event} :
    (a.effect (s.issue a e)).lastRefresh = (if a = .wire .refresh then BitVec.ofNat 64 s.now else s.lastRefresh) ∧
      (a.effect (s.issue a e)).lastRefreshValid = (if a = .wire .refresh then true else s.lastRefreshValid) := by
  have hissue : (s.issue a e).lastRefresh = (if a = .wire .refresh then BitVec.ofNat 64 s.now else s.lastRefresh) ∧
      (s.issue a e).lastRefreshValid = (if a = .wire .refresh then true else s.lastRefreshValid) := by
    unfold State.issue
    split <;> simp [emit_stampRefresh]
  cases a <;> exact hissue

theorem succeeded_entry {s : State} (e : Event) (hok : s.answer.ok = true) (hp : ∀ x y, e ≠ .pixRead x y) :
    (s.entry e).succeeded := by
  refine ⟨by simp [outcomeOf_eq_fail_iff, hok], fun hg => ?_⟩
  cases e with
  | get n => cases hg
  | pixRead i j => exact absurd rfl (hp i j)
  | delay ms => rfl
  | _ => simp [State.outcomeOf, hok]

/-- One item before a list of items. -/
theorem Along.cons {s u : State} {a : Action} {e : Event} {x : Answer} {items : List Action} {as : List Answer} {q : Cursor}
    (hw : s.wait = .idle) (he : s.itemEvent a = some e) (henv : s.env = x :: (as ++ u.env)) (hok : x.ok = true)
    (h : Along { a.effect (s.issue a e) with seq := q, wait := .idle } items as u) : Along s (a :: items) (x :: as) u := by
  obtain ⟨v, hv⟩ : ∃ v, v = { a.effect (s.issue a e) with seq := q, wait := .idle } := ⟨_, rfl⟩
  rw [← hv] at h
  obtain ⟨hkept, _, hnow, ⟨es, htr, hgood, hev⟩, hexp, hopen, hun, hst⟩ := h
  have hvkept : v = s.takenTo v := hv ▸ passed_kept henv q
  have hvnow : v.now = s.now + e.minMs + x.ms := by rw [hv]; exact passed_now henv
  have hvtr : v.trace = s.trace ++ [s.entry e] := by rw [hv]; simp [issue_trace]
  have hevent (b : Action) : v.itemEvent b = s.itemEvent b := by
    rw [hvkept]; exact itemEvent_takenTo b (by rw [hv, hw])
  have hmincons (l : List Action) : minMsOf (a :: l) = e.minMs + minMsOf l := by
    simp [minMsOf, minMs_of_itemEvent hw he]
  obtain ⟨hvexp, hvopen⟩ := effect_handles_congr a (issue_handles a e s).1 (issue_handles a e s).2
  obtain ⟨heff, heffo⟩ := effects_handles_congr items (s := a.effect s) (u := v) (hv ▸ hvexp) (hv ▸ hvopen)
  have hvlr : v.lastRefresh = if a = .wire .refresh then BitVec.ofNat 64 s.now else s.lastRefresh := by
    rw [hv]; exact passed_refresh.1
  have hvlrv : v.lastRefreshValid = if a = .wire .refresh then true else s.lastRefreshValid := by
    rw [hv]; exact passed_refresh.2
  refine ⟨?_, by simpa using henv, ?_, ⟨s.entry e :: es, ?_, ?_, ?_⟩, hexp.trans heff, hopen.trans heffo, fun hno => ?_,
    fun pre post hsplit hno => ?_⟩
  · calc u = v.takenTo u := hkept
      _ = (s.takenTo v).takenTo u := by rw [← hvkept]
      _ = s.takenTo u := rfl
  · rw [hnow, hvnow, hmincons]
    simp only [excessMs, List.map_cons, List.sum_cons]
    omega
  · rw [htr, hvtr]; simp
  · intro y hy
    rcases List.mem_cons.1 hy with rfl | hy
    · exact succeeded_entry e (by rw [answer_of_env henv, hok]) fun i j hp => by
        subst hp
        cases a with
        | waitBusy b => simp [State.itemEvent, hw] at he
        | _ => cases he
    · exact hgood y hy
  · simp [he, hev, hevent]
  · obtain ⟨hna, hni⟩ := not_or.1 (mt List.mem_cons.2 hno)
    obtain ⟨h1, h2⟩ := hun hni
    rw [h1, h2, hvlr, hvlrv, if_neg (Ne.symm hna), if_neg (Ne.symm hna)]
    exact ⟨rfl, rfl⟩
  · cases pre with
    | nil =>
      obtain ⟨rfl, rfl⟩ := List.cons.inj hsplit
      obtain ⟨h1, h2⟩ := hun hno
      rw [h1, h2, hvlr, hvlrv, if_pos rfl, if_pos rfl]
      exact ⟨rfl, rfl⟩
    | cons b pre =>
      obtain ⟨rfl, htail⟩ := List.cons.inj hsplit
      obtain ⟨h1, h2⟩ := hst pre post htail hno
      refine ⟨?_, h2⟩
      rw [h1, hvnow, hmincons]
      simp only [List.length_cons, List.take_succ_cons, excessMs, List.map_cons, List.sum_cons]
      exact congrArg _ (by omega)

/-- The items from the cursor on, all with an answer that lets them succeed, end the operation. -/
theorem run_ahead {s : State} (n : Nat) {items : List Action} {as rest : List Answer} (hb : s.busy = true) (hi : s.inputs = [])
    (hw : s.wait = .idle) (ho : s.seq.op ≠ .cleanup) (hc : (actionAt s.seq).isSome) (hahead : s.seq.ahead = items)
    (htest : ∀ k ∈ allChecks, .test k ∉ items) (henv : s.env = as ++ rest) (hlen : as.length = items.length)
    (hok : ∀ x ∈ as, x.ok = true)
    (hlevel : ∀ (i : Nat) (b : Bool) (x : Answer), items[i]? = some (.waitBusy b) → as[i]? = some x → x.level = s.targetLevel b) :
    ∃ u, State.run (n + items.length) s = u.closing.endOperation ∧ u.seq.op = s.seq.op ∧ u.env = rest ∧ Along s items as u := by
  induction items generalizing s as n with
  | nil =>
    obtain ⟨a, ha⟩ := Option.isSome_iff_exists.1 hc
    rw [ahead_eq ha] at hahead
    cases hahead
  | cons a items ih =>
    obtain ⟨x, as, rfl⟩ : ∃ x r, as = x :: r := List.exists_cons_of_length_eq_add_one hlen
    obtain ⟨a', ha⟩ := Option.isSome_iff_exists.1 hc
    have hcons := hahead
    rw [ahead_eq ha] at hcons
    obtain ⟨rfl, hnext⟩ := List.cons.inj hcons
    obtain ⟨e, he⟩ : ∃ e, s.itemEvent a' = some e := by
      cases a' with
      | test k => exact absurd List.mem_cons_self (htest k (mem_allChecks k))
      | waitBusy b => exact ⟨_, itemEvent_of_poll b (by simp [hw])⟩
      | _ => exact ⟨_, rfl⟩
    have hx : s.answer = x := answer_of_env (henv.trans (List.cons_append ..))
    have hxok := hok x List.mem_cons_self
    have hmove := move_succeeds ha ho hw he (hx.symm ▸ ⟨hxok, fun b hab => hlevel 0 b x (by simp [hab]) rfl⟩)
    rw [List.length_cons, ← Nat.add_assoc, run_succ _ hb hi, hmove]
    have hpassed := passed_env (a := a') (e := e) (henv.trans (List.cons_append ..))
    cases hn : nextItem s.seq with
    | none =>
      rw [hn] at hnext
      obtain rfl : items = [] := hnext.symm
      obtain rfl : as = [] := List.length_eq_zero_iff.1 (by simpa using hlen)
      refine ⟨{ a'.effect (s.issue a' e) with seq := s.seq, wait := .idle }, ?_, rfl, hpassed, ?_⟩
      · rw [List.length_nil, Nat.add_zero, advance_of_last (by simpa using hn)]
        have hsame : ({ a'.effect (s.issue a' e) with seq := s.seq, wait := .idle } : State).closing.endOperation =
            (a'.effect (s.issue a' e)).closing.endOperation := by
          unfold State.closing State.endOperation
          simp only [effect_seq, issue_seq]
          split <;> rfl
        rw [hsame]
        exact run_of_notBusy n rfl
      · exact .cons hw he (henv.trans (by rw [hpassed]; rfl)) hxok (.nil _)
    | some c =>
      rw [hn] at hnext
      obtain ⟨hc', hcop⟩ := nextItem_spec hn
      rw [advance_of_next (c := c) (by simpa using hn)]
      have hlevel' (i : Nat) (b : Bool) (y : Answer) (h1 : items[i]? = some (.waitBusy b)) (h2 : as[i]? = some y) :
          y.level = s.targetLevel b := hlevel (i + 1) b y (by simpa using h1) (by simpa using h2)
      obtain ⟨u, hrun, hop, hrest, halong⟩ := ih (s := { a'.effect (s.issue a' e) with seq := c, wait := .idle }) n (as := as)
        (by simpa using hb) (by simpa using hi) rfl (by simpa [hcop] using ho) (by simpa using hc') (by simpa using hnext)
        (fun k hk hm => htest k hk (List.mem_cons_of_mem _ hm)) hpassed (by simpa using hlen)
        (fun y hy => hok y (List.mem_cons_of_mem _ hy)) (fun i b y h1 h2 => by
          rw [hlevel' i b y h1 h2, State.targetLevel, State.targetLevel]
          rw [passed_params (e := e) (a := a') (henv.trans (List.cons_append ..))])
      refine ⟨u, hrun, ?_, hrest, .cons hw he (henv.trans (by rw [hrest]; rfl)) hxok halong⟩
      rw [hop]; exact hcop

/-- An operation that `s` accepted, past its tests: at the first item of a step. -/
def State.startedAt (op : Op) (step : Nat) (s : State) : State :=
  { s.acceptCommand op op.firstStep with seq := { op := op, step := step, item := 0 }, wait := .idle }

/-- What the end of an operation leaves, whose items have all been passed since the state `s` accepted it. -/
theorem Along.endOperation {s u : State} {op : Op} {step : Nat} {items : List Action} {as : List Answer}
    (h : Along (s.startedAt op step) items as u) :
    u.endOperation = { s.completed with
      exported := u.exported, busOpen := u.busOpen, env := u.env, now := u.now, trace := u.trace
      lastRefresh := u.lastRefresh, lastRefreshValid := u.lastRefreshValid } :=
  (congrArg State.endOperation h.kept).trans rfl

theorem hostCommand_runs (op : Op) {s : State} (hb : s.busy = false) :
    ∃ n, s.hostCommand op = State.run (n + 30) (s.acceptCommand op op.firstStep) := by
  obtain ⟨n, hn⟩ : ∃ n, 120996 + 8 * (s.busyTimeout.toNat / Config.busyPollMs + 2) + 4 = n + 30 :=
    ⟨120970 + 8 * (s.busyTimeout.toNat / Config.busyPollMs + 2), by omega⟩
  exact ⟨n, hn ▸ hostCommand_of_idle op hb⟩

/-- Only the busy waits poll. -/
theorem isGet_eq_false {s : State} {items : List Action} {es : List Entry} (hno : ∀ b, .waitBusy b ∉ items)
    (hev : es.map Entry.event = items.filterMap fun a => s.itemEvent a) {e : Entry} (he : e ∈ es) : isGet e = false := by
  have hmem : e.event ∈ items.filterMap fun a => s.itemEvent a := hev ▸ List.mem_map_of_mem he
  obtain ⟨a, ha, hae⟩ := List.mem_filterMap.1 hmem
  refine Bool.eq_false_iff.2 fun hg => ?_
  obtain ⟨⟨b, rfl⟩, -⟩ := wait_of_get hae hg
  exact hno b ha

/-! ### POWER_ON -/

/-- POWER_ON's two tests hold, and it stands at the first of its 24 events (R95). -/
theorem powerOn_begins (n : Nat) {s : State} (hi : s.inputs = []) (hs : s.session = false)
    (hg : geometryValid s.panelWidth.toNat s.panelHeight.toNat = true) :
    State.run (n + 2) (s.acceptCommand .powerOn 0) = State.run n (s.startedAt .powerOn 1) := by
  have hidle : (s.acceptCommand .powerOn 0).passes .sessionIdle = true := congrArg (!·) hs
  exact (run_test_passes (s := s.acceptCommand .powerOn 0) (c := ⟨.powerOn, 0, 1⟩) _ rfl hi rfl rfl hidle).trans
    (run_test_passes (k := .panelGeometry) _ rfl hi rfl rfl hg)

/-- Settles O26: after its tests POWER_ON passes all its items. -/
theorem powerOnBringsTheSessionUp : Obligations.PowerOnBringsTheSessionUp := by
  intro s as rest hb hs hi hg henv hlen hok
  obtain ⟨n, hn⟩ := hostCommand_runs .powerOn hb
  have hnoWait : ∀ b, .waitBusy b ∉ Cursor.ahead { op := .powerOn, step := 1, item := 0 } := by decide
  obtain ⟨u, hrun, hop, rfl, h⟩ := run_ahead (s := s.startedAt .powerOn 1)
    (items := Cursor.ahead { op := .powerOn, step := 1, item := 0 }) (n + 4) rfl hi rfl
    (show Op.powerOn ≠ .cleanup by decide) rfl rfl
    (by decide) henv hlen hok (fun i b x hib => absurd (List.mem_of_getElem? hib) (hnoWait b))
  obtain ⟨es, htr, hgood, hev⟩ := h.trace
  obtain ⟨hlr, hlrv⟩ := h.unstamped (by decide)
  have hstate : s.hostCommand .powerOn = { u.endOperation with session := true } := by
    rw [hn]
    refine (powerOn_begins (n + 28) hi hs hg).trans (hrun.trans ?_)
    unfold State.closing
    rw [hop]
    rfl
  have hexp : u.exported = allExported := h.exported.trans rfl
  have hopen : u.busOpen = true := h.busOpen.trans rfl
  have hnow : u.now = s.now + 30 + excessMs as := h.now.trans rfl
  refine ⟨es, ?_, fun e he => (hgood e he).2 ?_, hev.trans ?_⟩
  · show Host.Outcome.next (s.hostCommand .powerOn) = _
    rw [hstate, h.endOperation, hexp, hopen, hnow, htr, hlr, hlrv]
    rfl
  · exact isGet_eq_false hnoWait hev he
  · have hactivate : (if (s.panelWidth.toNat, s.panelHeight.toNat) ∈ s.params.activateAFor then ([0xE0, 0x02] : List Byte)
        else [0xCF, 0x02]) = (s.startedAt .powerOn 1).wireBytes .activate := by
      simp [State.wireBytes, State.activatesA, State.startedAt, State.acceptCommand]
    rw [hactivate]
    rfl

/-! ### SEND_IMAGE -/

/-- SEND_IMAGE's four tests hold, and it stands at the first of its 17 events (R97). -/
theorem sendImage_begins (n : Nat) {s : State} (hi : s.inputs = []) (hs : s.session = true) (hf : s.frameValid = true)
    (hw : s.frameWidth = s.panelWidth) (hh : s.frameHeight = s.panelHeight) (hr : s.refreshAllowed = true) :
    State.run (n + 4) (s.acceptCommand .sendImage 1) = State.run n (s.startedAt .sendImage 2) := by
  have hm : (decide (s.frameWidth = s.panelWidth) && decide (s.frameHeight = s.panelHeight)) = true := by simp [hw, hh]
  calc State.run (n + 4) (s.acceptCommand .sendImage 1)
      = State.run (n + 3) { s.acceptCommand .sendImage 1 with seq := ⟨.sendImage, 1, 1⟩, wait := .idle } :=
        run_test_passes (k := .sessionActive) _ rfl hi rfl rfl hs
    _ = State.run (n + 2) { s.acceptCommand .sendImage 1 with seq := ⟨.sendImage, 1, 2⟩, wait := .idle } :=
        run_test_passes (k := .frameHeld) _ rfl hi rfl rfl hf
    _ = State.run (n + 1) { s.acceptCommand .sendImage 1 with seq := ⟨.sendImage, 1, 3⟩, wait := .idle } :=
        run_test_passes (k := .frameMatches) _ rfl hi rfl rfl hm
    _ = State.run n (s.startedAt .sendImage 2) := run_test_passes (k := .refreshAllowed) _ rfl hi rfl rfl hr

/-- Where SEND_IMAGE waits, and for which level (R97). -/
theorem sendImage_waits (i : Nat) (b : Bool)
    (h : (Cursor.ahead { op := .sendImage, step := 2, item := 0 })[i]? = some (.waitBusy b)) :
    (i = 12 ∧ b = true) ∨ (i = 14 ∧ b = false) ∨ (i = 16 ∧ b = true) := by
  have table : ∀ i < 17, ∀ b, (Cursor.ahead { op := .sendImage, step := 2, item := 0 })[i]? = some (.waitBusy b) →
      (i = 12 ∧ b = true) ∨ (i = 14 ∧ b = false) ∨ (i = 16 ∧ b = true) := by decide
  exact table i (List.getElem?_eq_some_iff.1 h).1 b h

/-- Settles O30: after its tests SEND_IMAGE passes all its items, and REFRESH is the sixteenth. -/
theorem sendImageTransfersAndRefreshes : Obligations.SendImageTransfersAndRefreshes := by
  intro s as rest a12 a14 a16 hb hs hi hf hw hh hopenGuard henv hlen hok h12 h14 h16 hl12 hl14 hl16
  have hr : s.refreshAllowed = true := by
    rw [State.refreshAllowed, Bool.or_eq_true, Bool.not_eq_true', decide_eq_true_eq]
    exact hopenGuard
  obtain ⟨n, hn⟩ := hostCommand_runs .sendImage hb
  obtain ⟨u, hrun, hop, rfl, h⟩ := run_ahead (s := s.startedAt .sendImage 2)
    (items := Cursor.ahead { op := .sendImage, step := 2, item := 0 }) (n + 9) rfl hi rfl
    (show Op.sendImage ≠ .cleanup by decide) rfl rfl (by decide) henv hlen hok fun i b x hib hx => by
      rcases sendImage_waits i b hib with ⟨rfl, rfl⟩ | ⟨rfl, rfl⟩ | ⟨rfl, rfl⟩
      · cases hx.symm.trans h12; exact hl12
      · cases hx.symm.trans h14; exact hl14
      · cases hx.symm.trans h16; exact hl16
  obtain ⟨es, htr, hgood, hev⟩ := h.trace
  obtain ⟨hlr, hlrv⟩ := h.stamped (Cursor.ahead { op := .sendImage, step := 2, item := 0 } |>.take 15) [.waitBusy true] rfl
    (by decide)
  have hstate : s.hostCommand .sendImage = u.endOperation := by
    rw [hn]
    refine (sendImage_begins (n + 26) hi hs hf hw hh hr).trans (hrun.trans ?_)
    unfold State.closing
    rw [hop]
    rfl
  have hexp : u.exported = s.exported := h.exported.trans rfl
  have hopen : u.busOpen = s.busOpen := h.busOpen.trans rfl
  have hnow : u.now = s.now + excessMs as := h.now.trans rfl
  refine ⟨es, ?_, fun e he => (hgood e he).1, hev.trans rfl⟩
  show Host.Outcome.next (s.hostCommand .sendImage) = _
  rw [hstate, h.endOperation, hexp, hopen, hnow, htr, hlr, hlrv]
  rfl

/-! ### POWER_OFF -/

/-- POWER_OFF's test holds, and it stands at the first of its 14 events (R101). -/
theorem powerOff_begins (n : Nat) {s : State} (hi : s.inputs = []) (hs : s.session = true) :
    State.run (n + 1) (s.acceptCommand .powerOff 0) = State.run n (s.startedAt .powerOff 1) :=
  run_test_passes (k := .sessionActive) n rfl hi rfl rfl hs

/-- Settles O33: after its test POWER_OFF passes all its items. -/
theorem powerOffEndsTheSession : Obligations.PowerOffEndsTheSession := by
  intro s as rest a1 hb hs hi henv hlen hok h1 hl1
  obtain ⟨n, hn⟩ := hostCommand_runs .powerOff hb
  have hwait : ∀ i < 14, ∀ b, (Cursor.ahead { op := .powerOff, step := 1, item := 0 })[i]? = some (.waitBusy b) →
      i = 1 ∧ b = true := by decide
  obtain ⟨u, hrun, hop, rfl, h⟩ := run_ahead (s := s.startedAt .powerOff 1)
    (items := Cursor.ahead { op := .powerOff, step := 1, item := 0 }) (n + 15) rfl hi rfl
    (show Op.powerOff ≠ .cleanup by decide) rfl rfl (by decide) henv hlen hok fun i b x hib hx => by
      obtain ⟨rfl, rfl⟩ := hwait i (List.getElem?_eq_some_iff.1 hib).1 b hib
      cases hx.symm.trans h1
      exact hl1
  obtain ⟨es, htr, hgood, hev⟩ := h.trace
  obtain ⟨hlr, hlrv⟩ := h.unstamped (by decide)
  have hstate : s.hostCommand .powerOff = { u.endOperation with session := false } := by
    rw [hn]
    refine (powerOff_begins (n + 29) hi hs).trans (hrun.trans ?_)
    unfold State.closing
    rw [hop]
    rfl
  have hexp : u.exported = noneExported := h.exported.trans rfl
  have hopen : u.busOpen = false := h.busOpen.trans rfl
  have hnow : u.now = s.now + 150 + excessMs as := h.now.trans rfl
  refine ⟨es, ?_, fun e he => (hgood e he).1, hev.trans rfl⟩
  show Host.Outcome.next (s.hostCommand .powerOff) = _
  rw [hstate, h.endOperation, hexp, hopen, hnow, htr, hlr, hlrv]
  rfl

end Sys2Proof.Machine
end

section
/-! PROOFS. The layers' bytes from L on, which no move of ENCODE reaches (41_frame_packer.md R85). Settles O25. -/

namespace Sys2Proof.Machine

/-- The bytes of both layers from index `l` on read the same in `t` as in `s`. -/
structure SameBeyond (l : Nat) (s t : State) : Prop where
  primary : ∀ i, l ≤ i → memoryGet t.primary i = memoryGet s.primary i
  secondary : ∀ i, l ≤ i → memoryGet t.secondary i = memoryGet s.secondary i
  epoch : ∀ i, l ≤ i → t.byteEpoch i = s.byteEpoch i

theorem sameBeyond_of_eq {l : Nat} {s t : State} (hp : t.primary = s.primary) (hs : t.secondary = s.secondary)
    (hf : t.forgotten = s.forgotten) : SameBeyond l s t :=
  ⟨fun _ _ => by rw [hp], fun _ _ => by rw [hs], fun _ _ => by rw [State.byteEpoch, State.byteEpoch, hf]⟩

theorem SameBeyond.trans {l : Nat} {s t u : State} (h : SameBeyond l s t) (k : SameBeyond l t u) : SameBeyond l s u :=
  ⟨fun i hi => (k.primary i hi).trans (h.primary i hi), fun i hi => (k.secondary i hi).trans (h.secondary i hi),
    fun i hi => (k.epoch i hi).trans (h.epoch i hi)⟩

theorem SameBeyond.layerByte {l : Nat} {s t : State} (h : SameBeyond l s t) (y : Layer) {i : Nat} (hi : l ≤ i) :
    t.layerByte y i = s.layerByte y i := by
  have hget : memoryGet (t.layer y) i = memoryGet (s.layer y) i := by
    cases y with
    | primary => exact h.primary i hi
    | secondary => exact h.secondary i hi
  rw [State.layerByte, State.layerByte, hget, h.epoch i hi]

/-! ### The moves of ENCODE -/

/-- The group at the pixel cursor is below L (R81). -/
theorem Packing.groupIndex_lt {s : State} (h : Packing s) : s.groupIndex < s.encLength := by
  have hg := h.group
  calc s.groupIndex = s.pixel.y * s.groupsPerRow + s.pixel.g := rfl
    _ < (s.pixel.y + 1) * s.groupsPerRow := by rw [Nat.succ_mul]; omega
    _ ≤ s.encHeight.toNat * s.groupsPerRow := Nat.mul_le_mul_right _ h.row
    _ = s.encLength := (encLength_eq h.geometry).symm

theorem storeGroup_primary (acc : Byte) (s : State) : (s.storeGroup acc).primary = memorySet s.primary s.groupIndex acc := by
  unfold State.storeGroup
  split
  · rfl
  · split <;> rfl

theorem pixelOk_sameBeyond {l : Nat} {s : State} (b : Nat) (h : s.groupIndex < l) : SameBeyond l s (s.pixelOk b) := by
  have hsame : (s.pixelOk b).secondary = s.secondary ∧ (s.pixelOk b).forgotten = s.forgotten := by
    unfold State.pixelOk State.storeGroup
    split
    · exact ⟨rfl, rfl⟩
    · split
      · exact ⟨rfl, rfl⟩
      · split <;> exact ⟨rfl, rfl⟩
  refine ⟨fun i hi => ?_, fun i _ => by rw [hsame.1], fun i _ => by rw [State.byteEpoch, State.byteEpoch, hsame.2]⟩
  unfold State.pixelOk
  split
  · rfl
  · rw [storeGroup_primary, memoryGet_memorySet_other _ _ (by omega)]

theorem pixelFail_sameBeyond (s : State) : SameBeyond s.encLength s s.pixelFail := by
  rw [State.pixelFail, raise_encode]
  refine ⟨fun i hi => memoryGet_memoryForget_ge _ hi, fun i hi => memoryGet_memoryForget_ge _ hi, fun i hi => ?_⟩
  show (s.encLength :: s.forgotten).countP (fun l => decide (i < l)) = s.byteEpoch i
  rw [List.countP_cons_of_neg (by simpa using hi)]
  rfl

theorem encodeMove_sameBeyond {s : State} (ho : s.seq.op = .encode) (h : s.seq.step = 1 ∨ frameInvariant s) :
    SameBeyond s.encLength s s.encodeMove := by
  have hread (e : Event) : SameBeyond s.encLength s (s.emit e) := sameBeyond_of_eq (by simp) (by simp) (by simp)
  unfold State.encodeMove
  split
  · unfold State.encodeGeometry
    split
    · exact sameBeyond_of_eq rfl rfl rfl
    · rw [raise_encode]; exact sameBeyond_of_eq rfl rfl rfl
  · unfold State.encodeDimensions
    split
    · exact sameBeyond_of_eq rfl rfl rfl
    · rw [raise_encode]; exact sameBeyond_of_eq rfl rfl rfl
  · rename_i h3
    have hpack : Packing s := packing_of_encodeProgress ho h3 (h.resolve_left (by omega)).2.1
    unfold State.encodePixel
    split
    · refine (hread _).trans (pixelOk_sameBeyond _ ?_)
      simpa [State.groupIndex, State.groupsPerRow] using hpack.groupIndex_lt
    · have hL (e : Event) : (s.emit e).encLength = s.encLength := by simp [State.encLength]
      have hfail := pixelFail_sameBeyond (s.emit (.pixRead s.pixel.x s.pixel.y))
      exact (hread _).trans (hL (.pixRead s.pixel.x s.pixel.y) ▸ hfail)
  · exact ⟨fun _ _ => rfl, fun i hi => memoryGet_memoryZero_ge _ hi, fun _ _ => rfl⟩
  · exact sameBeyond_of_eq rfl rfl rfl
  · exact sameBeyond_of_eq rfl rfl rfl

/-- After its first move, ENCODE is in the invariant of the frame, whatever frame was held before. -/
theorem encodeMove_invariant_of_first {s : State} (hb : s.busy = true) (ho : s.seq.op = .encode)
    (h : s.seq.step = 1 ∨ frameInvariant s) : frameInvariant s.encodeMove := by
  rcases h with h | h
  · have : s.encodeMove = s.encodeGeometry := by simp [State.encodeMove, h]
    rw [this]
    exact encodeGeometry_invariant hb
  · exact encodeMove_invariant hb ho h

theorem hostCommand_encode_sameBeyond (s : State) : SameBeyond s.encLength s (s.hostCommand .encode) := by
  unfold State.hostCommand
  split
  · exact sameBeyond_of_eq rfl rfl rfl
  · refine (run_induction (s := s.acceptCommand .encode 1) (P := fun u => u.packing ∧ u.hostSide = s.hostSide ∧
        (u.seq.op = .encode → u.seq.step = 1 ∨ frameInvariant u) ∧ SameBeyond s.encLength s u)
      (fun u ⟨hp, hu, hfirst, hsame⟩ => ?_) (fun u hb ⟨hp, hu, hfirst, hsame⟩ => ?_) _
      ⟨.inl rfl, rfl, fun _ => .inl rfl, sameBeyond_of_eq rfl rfl rfl⟩).2.2.2
    · unfold State.tick
      split <;> exact ⟨hp, hu, hfirst, hsame.trans (sameBeyond_of_eq rfl rfl rfl)⟩
    · refine ⟨(move_packing hp).1, (move_hostSide u).trans hu, ?_⟩
      by_cases ho : u.seq.op = .encode
      · have hmove : u.move = u.encodeMove := by unfold State.move; rw [ho]
        have hL : u.encLength = s.encLength :=
          congrArg (fun x : HostSide => layerLength x.encWidth.toNat x.encHeight.toNat) hu
        rw [hmove]
        exact ⟨fun _ => .inr (encodeMove_invariant_of_first hb ho (hfirst ho)),
          hsame.trans (hL ▸ encodeMove_sameBeyond ho (hfirst ho))⟩
      · have hmove : u.move = u.endOperation := by
          unfold State.move
          rw [hp.resolve_left ho]
        rw [hmove]
        exact ⟨fun h => (by cases h), hsame.trans (sameBeyond_of_eq rfl rfl rfl)⟩

/-- Settles O25: no move of ENCODE writes or forgets a byte from L on. -/
theorem encodeKeepsBytesBeyondTheFrame : Obligations.EncodeKeepsBytesBeyondTheFrame := by
  intro s t h l i hi
  obtain rfl : s.hostCommand .encode = t := Host.Outcome.next.inj h
  exact (hostCommand_encode_sameBeyond s).layerByte l hi

end Sys2Proof.Machine
end

section
/-! PROOFS. ENCODE read by read: the whole state after its first reads, and the bits it has packed (41_frame_packer.md R76, R81, R82,
R86). Settles O21 and O23. -/

namespace Sys2Proof.Machine

/-! ### One read -/

/-- The state `s` with all that a read of ENCODE changes taken from `u`. -/
def State.readTo (s u : State) : State :=
  { s with
    primary := u.primary, pixel := u.pixel, seq := u.seq, env := u.env, now := u.now, trace := u.trace }

/-- The dark bit of pixel `k`, by its answer (R76). -/
def State.darkAt (as : List Answer) (s : State) (k : Nat) : Bool := as[k]?.any fun a => s.isDark (s.brightness a)

theorem darkAt_append {s : State} {as bs : List Answer} {k : Nat} (h : k < as.length) :
    s.darkAt (as ++ bs) k = s.darkAt as k := by
  rw [State.darkAt, State.darkAt, List.getElem?_append_left h]

theorem darkAt_concat (s : State) (as : List Answer) (a : Answer) :
    s.darkAt (as ++ [a]) as.length = s.isDark (s.brightness a) := by
  simp [State.darkAt]

/-- A dark pixel sets its bit, and no pixel touches another's (R81, R83). -/
theorem accumulate_getLsbD (acc : Byte) (n : Nat) (dark : Bool) {i : Nat} (hi : i < 8) :
    (accumulate acc n dark).getLsbD i = (acc.getLsbD i || (dark && decide (i = n))) := by
  have hone : ((1 <<< n : Nat) : Byte).getLsbD i = decide (i = n) := by
    show (BitVec.ofNat 8 (1 <<< n)).getLsbD i = _
    rw [BitVec.getLsbD_ofNat, decide_eq_true hi, Bool.true_and, Nat.one_shiftLeft, Nat.testBit_two_pow]
    exact decide_eq_decide.2 eq_comm
  cases dark with
  | false => simp [accumulate]
  | true => rw [accumulate, if_pos rfl, BitVec.getLsbD_or, hone, Bool.true_and]

/-- The move of a read that succeeds. -/
theorem AtPixel.move_eq {k : Nat} {s : State} {a : Answer} {rest : List Answer} (h : AtPixel k s) (henv : s.env = a :: rest)
    (ha : a.ok = true) : s.move = (s.emit (rasterRead s.encWidth.toNat k)).pixelOk (s.brightness a) := by
  rw [move_of_encode h.seq, ← h.read_eq]
  simp [State.encodeMove, h.seq, State.encodePixel, answer_of_env henv, ha]

theorem pixelOk_readTo {s : State} {a : Answer} {rest : List Answer} (henv : s.env = a :: rest) (e : Event) (b : Nat) :
    (s.emit e).pixelOk b = s.readTo ((s.emit e).pixelOk b) := by
  unfold State.pixelOk State.storeGroup State.emit State.takeAnswer
  rw [henv]
  dsimp only
  split
  · rfl
  · split
    · rfl
    · split <;> rfl

theorem pixelOk_now (b : Nat) (s : State) : (s.pixelOk b).now = s.now := by
  unfold State.pixelOk State.storeGroup
  split
  · rfl
  · split
    · rfl
    · split <;> rfl

/-- The place of the pixel cursor in the layer: pixel `k` is bit `k mod 8` of byte `k div 8` (R51). -/
theorem AtPixel.place {k : Nat} {s : State} (h : AtPixel k s) : s.groupIndex = k / 8 ∧ s.pixel.n = k % 8 := by
  have hn := h.bit
  have hk : k = 8 * s.groupIndex + s.pixel.n := by
    have hW : s.encWidth.toNat = 8 * s.groupsPerRow := by
      have := h.width
      rw [groupsPerRow_eq]
      omega
    rw [h.index, PixelCursor.x_eq, State.groupIndex, hW, Nat.mul_add, ← Nat.mul_assoc, ← Nat.mul_assoc, Nat.mul_comm 8 s.pixel.y]
    omega
  omega

/-! ### The bits packed so far -/

/-- After the reads `as`: each complete group is a byte of PRIMARY, and ACC holds the bits of the one begun (R81). -/
structure BitsPacked (s : State) (as : List Answer) (u : State) : Prop where
  stored : ∀ i, 8 * (i + 1) ≤ as.length → ∃ b : Byte, memoryGet u.primary i = some b ∧
    ∀ n < 8, b.getLsbD n = s.darkAt as (8 * i + n)
  begun : AtPixel as.length u → ∀ n < 8, u.pixel.acc.getLsbD n =
    (decide (n < as.length % 8) && s.darkAt as (8 * (as.length / 8) + n))

/-- The bits of ACC once the next pixel is in. -/
theorem BitsPacked.acc {s u : State} {as : List Answer} {a : Answer} (h : BitsPacked s as u) (hat : AtPixel as.length u)
    {n : Nat} (hn : n < 8) : (accumulate u.pixel.acc u.pixel.n (s.isDark (s.brightness a))).getLsbD n =
      (decide (n < as.length % 8 + 1) && s.darkAt (as ++ [a]) (8 * (as.length / 8) + n)) := by
  rw [accumulate_getLsbD _ _ _ hn, h.begun hat n hn, hat.place.2]
  rcases Nat.lt_trichotomy n (as.length % 8) with hlt | rfl | hgt
  · have hold : s.darkAt (as ++ [a]) (8 * (as.length / 8) + n) = s.darkAt as (8 * (as.length / 8) + n) :=
      darkAt_append (by omega)
    have hnext : n < as.length % 8 + 1 := by omega
    simp [hold, hlt, hnext, Nat.ne_of_lt hlt]
  · have hnew : s.darkAt (as ++ [a]) (8 * (as.length / 8) + as.length % 8) = s.isDark (s.brightness a) := by
      rw [Nat.div_add_mod, darkAt_concat]
    simp [hnew]
  · have hno : ¬ n < as.length % 8 + 1 := by omega
    simp [hno, Nat.not_lt.2 hgt.le, Nat.ne_of_gt hgt]

/-- The bytes stored before a read stay true of one answer more. -/
theorem BitsPacked.stored_concat {s u : State} {as : List Answer} (h : BitsPacked s as u) (a : Answer) {i : Nat}
    (hi : 8 * (i + 1) ≤ as.length) : ∃ b : Byte, memoryGet u.primary i = some b ∧
      ∀ n < 8, b.getLsbD n = s.darkAt (as ++ [a]) (8 * i + n) := by
  obtain ⟨b, hb, hbits⟩ := h.stored i hi
  exact ⟨b, hb, fun n hn => by rw [hbits n hn, darkAt_append (by omega)]⟩

/-- Where step 3 goes on after a group, ACC begins again (R81). -/
theorem storeGroup_acc {acc : Byte} {s : State} (h : (s.storeGroup acc).seq.step = 3) : (s.storeGroup acc).pixel.acc = 0 := by
  unfold State.storeGroup at h ⊢
  split
  · rfl
  · rename_i hg
    rw [if_neg hg] at h
    split
    · rfl
    · rename_i hy
      rw [if_neg hy] at h
      cases h

/-- One read more: its bit is in ACC, or completes a byte (R81). -/
theorem BitsPacked.move {s u : State} {as : List Answer} {a : Answer} (h : BitsPacked s as u) (hat : AtPixel as.length u)
    (b : Nat) (hb : u.isDark b = s.isDark (s.brightness a)) : BitsPacked s (as ++ [a]) (u.pixelOk b) := by
  obtain ⟨hgroup, hbit⟩ := hat.place
  have hlen : (as ++ [a]).length = as.length + 1 := by simp
  unfold State.pixelOk
  rw [hb]
  split
  · rename_i hn
    have hn8 : as.length % 8 + 1 < 8 := hbit ▸ hn
    refine ⟨fun i hi => h.stored_concat a (by omega), fun _ n hn' => ?_⟩
    rw [hlen, show (as.length + 1) % 8 = as.length % 8 + 1 by omega, show (as.length + 1) / 8 = as.length / 8 by omega]
    exact h.acc hat hn'
  · rename_i hn
    have hn8 : ¬ as.length % 8 + 1 < 8 := hbit ▸ hn
    refine ⟨fun i hi => ?_, fun hat' n hn' => ?_⟩
    · rw [storeGroup_primary, hgroup]
      by_cases hnew : i = as.length / 8
      · subst hnew
        refine ⟨_, memoryGet_memorySet_same .., fun n hn' => ?_⟩
        rw [h.acc hat hn', decide_eq_true (by omega : n < as.length % 8 + 1), Bool.true_and]
      · rw [memoryGet_memorySet_other _ _ hnew]
        exact h.stored_concat a (by omega)
    · rw [storeGroup_acc (by rw [hat'.seq]), show (as ++ [a]).length % 8 = 0 by omega]
      simp

/-! ### The reads of an ENCODE -/

/-- From `s`, where ENCODE stands at pixel 0, the reads with the answers `as`, all Ok, to `u`. -/
structure ReadsDone (s : State) (as : List Answer) (u : State) : Prop where
  kept : u = s.readTo u
  env : s.env = as ++ u.env
  now : u.now = s.now + excessMs as
  trace : ∃ es, u.trace = s.trace ++ es ∧ es.map Entry.event = (List.range as.length).map (rasterRead s.encWidth.toNat)
  place : AtPixel as.length u ∨ (as.length = s.encWidth.toNat * s.encHeight.toNat ∧ PixelsRead u)
  packed : BitsPacked s as u

theorem readsDone_nil {s : State} (h : AtPixel 0 s) (hacc : s.pixel.acc = 0) : ReadsDone s [] s := by
  refine ⟨rfl, rfl, rfl, ⟨[], (List.append_nil _).symm, rfl⟩, .inl h, fun i hi => ?_, fun _ n _ => by simp [hacc]⟩
  simp only [List.length_nil] at hi
  omega

theorem ReadsDone.move {s u : State} {as rest : List Answer} {a : Answer} (h : ReadsDone s as u) (hat : AtPixel as.length u)
    (henv : u.env = a :: rest) (ha : a.ok = true) : ReadsDone s (as ++ [a]) u.move ∧ u.move.env = rest := by
  obtain ⟨hkept, henv0, hnow, ⟨es, htr, hev⟩, -, hpacked⟩ := h
  have hW : u.encWidth = s.encWidth := by rw [hkept]; rfl
  have hH : u.encHeight = s.encHeight := by rw [hkept]; rfl
  have hdark : u.isDark (u.brightness a) = s.isDark (s.brightness a) := by rw [hkept]; rfl
  obtain ⟨hnext, hrest, -⟩ := hat.move henv ha
  have hmove := hat.move_eq henv ha
  have hread : AtPixel as.length (u.emit (rasterRead u.encWidth.toNat as.length)) := by
    obtain ⟨hb, hi, hseq, hw, hy, hg, hn, hk⟩ := hat
    constructor <;> simpa
  refine ⟨⟨?_, ?_, ?_, ?_, ?_, ?_⟩, hrest⟩
  · calc u.move = u.readTo u.move := hmove ▸ pixelOk_readTo henv _ _
      _ = (s.readTo u).readTo u.move := by rw [← hkept]
      _ = s.readTo u.move := rfl
  · rw [henv0, henv, hrest]; simp
  · rw [hmove, pixelOk_now, State.emit_now, answer_of_env henv, hnow]
    simp [excessMs, rasterRead, Event.minMs]
    omega
  · refine ⟨es ++ [u.entry (rasterRead u.encWidth.toNat as.length)], ?_, ?_⟩
    · rw [hmove, (pixelOk_keeps _ _).2.1, State.emit_trace, htr]
      simp [State.entry]
    · simp [hev, hW, List.range_succ]
  · rw [List.length_append, List.length_singleton, ← hW, ← hH]
    exact hnext
  · rw [hmove]
    refine BitsPacked.move ⟨?_, ?_⟩ hread _ ?_
    · simpa using hpacked.stored
    · intro hat' n hn
      have := hpacked.begun hat n hn
      simpa using this
    · rw [← hdark, State.isDark, State.emit_params]
      rfl

/-- All of the answers that remain, one move each. -/
theorem run_reads (n : Nat) {s u : State} {as more rest : List Answer} (h : ReadsDone s as u) (henv : u.env = more ++ rest)
    (hok : ∀ a ∈ more, a.ok = true) (hlen : as.length + more.length ≤ s.encWidth.toNat * s.encHeight.toNat) :
    ∃ v, State.run (n + more.length) u = State.run n v ∧ v.env = rest ∧ ReadsDone s (as ++ more) v := by
  induction more generalizing as u with
  | nil => exact ⟨u, rfl, henv, by simpa using h⟩
  | cons a more ih =>
    obtain ⟨ha, hok'⟩ := List.forall_mem_cons.1 hok
    rw [List.length_cons] at hlen
    have hat : AtPixel as.length u := h.place.resolve_right fun hl => by omega
    obtain ⟨hnext, hrest⟩ := h.move hat henv ha
    obtain ⟨v, hrun, hv, hdone⟩ := ih hnext hrest hok' (by simp; omega)
    refine ⟨v, ?_, hv, by simpa using hdone⟩
    rw [List.length_cons, ← Nat.add_assoc, run_succ _ hat.busy hat.inputs]
    exact hrun

/-- An accepted ENCODE, past its checks, reads with the answers at hand. -/
theorem hostCommand_reads {s : State} {as rest : List Answer} (hb : s.busy = false) (hi : s.inputs = [])
    (hg : geometryValid s.encWidth.toNat s.encHeight.toNat = true) (hw : s.srcWidth = s.encWidth.toNat)
    (hh : s.srcHeight = s.encHeight.toNat) (henv : s.env = as ++ rest) (hok : ∀ a ∈ as, a.ok = true)
    (hlen : as.length ≤ s.encWidth.toNat * s.encHeight.toNat) :
    ∃ m v, s.hostCommand .encode = State.run (m + 2) v ∧ v.env = rest ∧ ReadsDone s.readsBegin as v := by
  obtain ⟨n, hn⟩ := moveBound_of_geometryValid hg
  obtain ⟨m, hm⟩ : ∃ m, s.encWidth.toNat * s.encHeight.toNat + (n + 2) = m + 2 + as.length :=
    ⟨n + (s.encWidth.toNat * s.encHeight.toNat - as.length), by omega⟩
  obtain ⟨v, hrun, hrest, hdone⟩ := run_reads (m + 2) (readsDone_nil (atPixel_readsBegin hi hg) rfl) henv hok
    (by rw [List.length_nil, Nat.zero_add]; exact hlen)
  refine ⟨m, v, ?_, hrest, hdone⟩
  rw [State.hostCommand, if_neg (by simp [hb]), hn, hm, ← hrun]
  exact run_accepted _ hi hg hw hh

/-! ### A whole frame -/

theorem run_of_pixelsRead_eq (n : Nat) {s : State} (h : PixelsRead s) :
    State.run (n + 2) s = s.encodeSecondary.encodeCommit := by
  have h4 : s.move = s.encodeSecondary := by simp [move_of_encode h.seq, State.encodeMove, h.seq]
  have h5 : s.encodeSecondary.move = s.encodeSecondary.encodeCommit := rfl
  rw [run_succ _ h.busy h.inputs, h4, run_succ _ (show s.encodeSecondary.busy = true from h.busy) h.inputs, h5,
    run_of_notBusy _ rfl]

/-- ENCODE whose reads all succeed commits the frame (R81 steps 4 and 5). -/
theorem ReadsDone.commit {s v : State} {as : List Answer} (h : ReadsDone s.readsBegin as v) :
    v.encodeSecondary.encodeCommit = { s.completed with
      frameValid := true, frameWidth := s.encWidth, frameHeight := s.encHeight, frameColor := s.encColor
      primary := v.primary, secondary := memoryZero s.encLength s.secondary, pixel := v.pixel, env := v.env, now := v.now
      trace := v.trace } :=
  (congrArg (fun u : State => u.encodeSecondary.encodeCommit) h.kept).trans rfl

/-- The byte and the bit of pixel (x, y), counted in raster order (R51). -/
theorem pixel_index {w h x y : Nat} (h8 : w % 8 = 0) (hx : x < w) (hy : y < h) :
    8 * (y * (w / 8) + x / 8) + x % 8 = y * w + x ∧ 8 * (y * (w / 8) + x / 8 + 1) ≤ w * h := by
  obtain ⟨g, rfl⟩ : ∃ g, w = 8 * g := ⟨w / 8, by omega⟩
  have hrow : 8 * (y * g) = y * (8 * g) := Nat.mul_left_comm ..
  have hend : (y + 1) * (8 * g) ≤ 8 * g * h := by
    rw [Nat.mul_comm (8 * g)]; exact Nat.mul_le_mul_right _ hy
  rw [Nat.succ_mul] at hend
  rw [Nat.mul_div_cancel_left g (by decide : 0 < 8)]
  omega

/-- Settles O21: after the reads each byte of PRIMARY holds its eight pixels, and SECONDARY is zeroed. -/
theorem encodePacksTheRaster : Obligations.EncodePacksTheRaster := by
  intro s img as rest hb hi hg hw hh henv hlen himg
  obtain ⟨hw1, -, h8, -⟩ := (geometryValid_iff ..).1 hg
  have hok : ∀ a ∈ as, a.ok = true := by
    intro a ha
    obtain ⟨k, hk, rfl⟩ := List.getElem_of_mem ha
    rw [hlen] at hk
    obtain ⟨b, hb', hbok, -⟩ := himg (k % s.encWidth.toNat) (k / s.encWidth.toNat) (Nat.mod_lt _ hw1) (Nat.div_lt_of_lt_mul hk)
    rw [Nat.div_add_mod'] at hb'
    rwa [(List.getElem?_eq_some_iff.1 hb').2]
  obtain ⟨m, v, hrun, rfl, hdone⟩ := hostCommand_reads hb hi hg hw hh henv hok hlen.le
  have hread : PixelsRead v := by
    rcases hdone.place with hat | ⟨-, hread⟩
    · have hlt := hat.lt_pixels
      have hW : v.encWidth = s.encWidth := by rw [hdone.kept]; rfl
      have hH : v.encHeight = s.encHeight := by rw [hdone.kept]; rfl
      rw [hW, hH, hlen] at hlt
      exact absurd hlt (Nat.lt_irrefl _)
    · exact hread
  have hstate := hrun.trans ((run_of_pixelsRead_eq m hread).trans hdone.commit)
  obtain ⟨es, htr, hev⟩ := hdone.trace
  have hsame := hostCommand_encode_sameBeyond s
  rw [hstate] at hsame
  refine ⟨v.primary, memoryZero s.encLength s.secondary, v.pixel, es, ?_, fun x y hx hy => ?_,
    fun i hi => memoryGet_memoryZero_lt _ hi, fun i hi => ⟨hsame.primary i hi, hsame.secondary i hi⟩, fun e he => ?_⟩
  · show Host.Outcome.next (s.hostCommand .encode) = _
    rw [hstate, htr, hdone.now]
    rfl
  · obtain ⟨hbit, hbyte⟩ := pixel_index h8 hx hy
    obtain ⟨b, hb', hbits⟩ := hdone.packed.stored _ (hlen ▸ hbyte)
    obtain ⟨a, ha, -, hbright⟩ := himg x y hx hy
    refine ⟨b, hb', ?_⟩
    rw [hbits _ (Nat.mod_lt _ (by decide)), hbit, State.darkAt, ha, ← hbright]
    rfl
  · have hmem : e.event ∈ (List.range as.length).map (rasterRead s.encWidth.toNat) := hev ▸ List.mem_map_of_mem he
    obtain ⟨k, -, hk⟩ := List.mem_map.1 hmem
    unfold isPixRead
    rw [← hk]
    rfl

/-! ### A read that fails -/

theorem AtPixel.move_fails {k : Nat} {s : State} {a : Answer} {rest : List Answer} (h : AtPixel k s) (henv : s.env = a :: rest)
    (ha : a.ok = false) : s.move = (s.emit (rasterRead s.encWidth.toNat k)).pixelFail := by
  rw [move_of_encode h.seq, ← h.read_eq]
  simp [State.encodeMove, h.seq, State.encodePixel, answer_of_env henv, ha]

/-- The coordinate of pixel `k` (R82). -/
theorem AtPixel.coordinate {k : Nat} {s : State} (h : AtPixel k s) :
    s.pixel.x = k % s.encWidth.toNat ∧ s.pixel.y = k / s.encWidth.toNat := by
  have hread := h.read_eq
  simpa [rasterRead] using hread

/-- ENCODE stops at a read that fails, with its coordinate (R81, R86). -/
theorem ReadsDone.stop {s v : State} {as rest : List Answer} {a : Answer} (h : ReadsDone s.readsBegin as v)
    (henv : v.env = a :: rest) (e : Event) (hms : e.minMs = 0) : (v.emit e).pixelFail = { s.completed with
      frameValid := false
      error := { code := .pixelAccess, phase := .encode, step := 3, item := 0 }
      errX := BitVec.ofNat 32 v.pixel.x, errY := BitVec.ofNat 32 v.pixel.y
      primary := memoryForget s.encLength v.primary, secondary := memoryForget s.encLength s.secondary
      pixel := v.pixel, env := rest, forgotten := s.encLength :: s.forgotten
      now := s.now + excessMs as + a.ms, trace := v.trace ++ [v.entry e] } := by
  have hemit : v.emit e = { v with env := rest, now := v.now + a.ms, trace := v.trace ++ [v.entry e] } := by
    unfold State.emit State.takeAnswer
    rw [answer_of_env henv, henv]
    simp [State.entry, answer_of_env henv, hms]
  rw [hemit, State.pixelFail, raise_encode, h.now]
  generalize v.entry e = read
  conv_lhs => rw [h.kept]
  rfl

/-- Settles O23: after the reads that succeed, the one that fails stops ENCODE. -/
theorem encodeStopsAtFirstFailedRead : Obligations.EncodeStopsAtFirstFailedRead := by
  intro s as rest a hb hi hg hw hh henv hlen hok ha
  obtain ⟨m, v, hrun, hv, hdone⟩ := hostCommand_reads hb hi hg hw hh henv hok hlen.le
  have hat : AtPixel as.length v := hdone.place.resolve_right fun hl => (Nat.ne_of_lt hlen) hl.1
  have hW : v.encWidth = s.encWidth := by rw [hdone.kept]; rfl
  have hstop := hdone.stop hv (rasterRead v.encWidth.toNat as.length) rfl
  have hstate : s.hostCommand .encode = (v.emit (rasterRead v.encWidth.toNat as.length)).pixelFail := by
    rw [hrun, run_succ (m + 1) hat.busy hat.inputs, hat.move_fails hv ha]
    exact run_of_notBusy _ (by rw [hstop]; rfl)
  have hend := hstate.trans hstop
  obtain ⟨es, htr, hev⟩ := hdone.trace
  obtain ⟨hx, hy⟩ := hat.coordinate
  have hsame := hostCommand_encode_sameBeyond s
  rw [hend] at hsame
  refine ⟨_, _, v.pixel, es ++ [v.entry (rasterRead v.encWidth.toNat as.length)], ?_, ?_,
    fun i hi => ⟨hsame.primary i hi, hsame.secondary i hi⟩⟩
  · show Host.Outcome.next (s.hostCommand .encode) = _
    rw [hend, htr, hx, hy, hW, List.append_assoc]
    rfl
  · rw [List.map_append, hev, List.range_succ, List.map_append, hW]
    rfl

end Sys2Proof.Machine
end
